-- ==== Sys2Proof/Word.lean ====
section
/-! DEFINITION. The word types of the ZG-4410 model: what the handbook carries as bits.
Quantities the handbook counts in units (tenths, micrometres, centigrams, pieces) are `Nat` or `Int`. -/

namespace Sys2Proof

/-- A byte of a Message Link frame or of an instrument record. -/
abbrev Byte := BitVec 8

/-- Line time (00_scope, Units): a 32-bit count of milliseconds since the last reset, which wraps. -/
abbrev LineTime := BitVec 32

/-- A lock group's revision (R178): a count from 0 to 65,535 that follows 65,535 with 0. -/
abbrev Revision := BitVec 16

/-- A set of insert stations S1 to S6 (R102; 11.6 codes it with S1 to S6 in the six lowest bits). -/
abbrev StationSet := BitVec 6

/-- A selection of the five mark fields (R3; 11.6: job code, piece number, sheet index, sheet count and
wrap sequence in the five lowest bits, lowest first). -/
abbrev Mask := BitVec 5

/-- A set of fault kinds (11.6, Fault kinds in a reason set: 4 bytes, one bit for each kind). -/
abbrev FaultSet := BitVec 32

/-- A slot of the set record pool, 0 to 15 (R44). -/
abbrev Slot := Fin 16

/-- An insert station: `0` is S1, … `5` is S6. -/
abbrev StationId := Fin 6

/-- A sort bin: `0` is B1, … `9` is B10, `10` is BR. -/
abbrev BinId := Fin 11

/-- A track position P0 to P11. -/
abbrev Position := Fin 12

end Sys2Proof
end

