-- ==== Sys2Proof/Syntax.lean ====
section
/-! DEFINITION. The commands: one constructor for each row of spec/opcode_table.json, with its operands.
A host request carries its frame's TAG and BODY as raw bytes (11.6), an instrument record its fields (R195), a
line-port event the station, bin, zone or sensor it names. -/

namespace Sys2Proof

/-- The four link rates, selected by two strap lines (chapter 11). -/
inductive LinkRate where
  | r115200 | r230400 | r460800 | r921600
  deriving DecidableEq, Repr

/-- Key position (R154). -/
inductive KeyPosition where
  | run | setup
  deriving DecidableEq, Repr

/-- The guard interlock input (R154). -/
inductive InterlockInput where
  | closed | opened
  deriving DecidableEq, Repr

/-- The input lines that a reset reads (R97, R154, chapter 11): the rate straps, the keyswitch, the interlock, the
exit-clear input (high is `true`) and the four sensors of each of the zones FEED, FOLD, TRACK, SORT (blocked is `true`). -/
structure Inputs where
  rate : LinkRate
  key : KeyPosition
  interlock : InterlockInput
  exitClear : Bool
  sensors : Vector (Vector Bool 4) 4
  deriving DecidableEq, Repr

/-- The fields of a GOOD READ record, in the widths of 11.6. -/
structure RawMark where
  job : BitVec 16
  piece : BitVec 24
  index : Byte
  count : Byte
  wrap : Byte
  deriving DecidableEq, Repr

/-- The result with which a drop completes (R107). -/
inductive DropResult where
  | good | miss | double
  deriving DecidableEq, Repr

/-- The result with which a refill attempt or an envelope refill completes (R108, R112). -/
inductive RefillResult where
  | good | fail
  deriving DecidableEq, Repr

/-- The result with which an envelope insert completes (R111). -/
inductive InsertResult where
  | good | envelopeMiss | insertFail
  deriving DecidableEq, Repr

/-- The three serial instrument ports (R195). -/
inductive InstrumentPort where
  | reader | scanner | scale
  deriving DecidableEq, Repr

/-- The commands. Each constructor is the row of the table that its docstring names. -/
inductive Instr where
  /-- POWER_ON: power-on, with the inputs it reads (R183). -/
  | powerOn (inp : Inputs)
  /-- RESET_LINE: the reset line, with the inputs it reads (R184). -/
  | resetLine (inp : Inputs)
  /-- FRAME_DISCARDED: bytes that arrive, from an SOF on, and bring a frame with LEN out of range or a wrong CRC (R185). -/
  | frameDiscarded (bytes : List Byte)
  /-- FRAMING_ERROR: these bytes arrive, and after them a byte without its stop bit (R186). -/
  | framingError (bytes : List Byte)
  /-- LINK_GAP_TIMEOUT: these bytes arrive, and after them more than 5 ms pass without a byte (R186). -/
  | linkGapTimeout (bytes : List Byte)
  /-- OVERRUN: a complete frame that arrives while a request is held (R187). -/
  | overrun (tag type : Byte) (body : List Byte)
  /-- UNKNOWN_TYPE: a request whose TYPE names no request (R188). -/
  | unknownType (tag type : Byte) (body : List Byte)
  /-- REPLY_SENT: the last byte of the reply has left; the inputs are those a Restart then reads (R187, R157). -/
  | replySent (inp : Inputs)
  /-- IDENTIFY (R193). -/
  | identify (tag : Byte) (body : List Byte)
  /-- STATUS (R194). -/
  | status (tag : Byte) (body : List Byte)
  /-- POLL (R192). -/
  | poll (tag : Byte) (body : List Byte)
  /-- CONFIGURE (R177). -/
  | configure (tag : Byte) (body : List Byte)
  /-- WRITE_TABLE (R175). -/
  | writeTable (tag : Byte) (body : List Byte)
  /-- READ_TABLE (R182). -/
  | readTable (tag : Byte) (body : List Byte)
  /-- SET_LOCK (R180). -/
  | setLock (tag : Byte) (body : List Byte)
  /-- SET_RANGE_FILTER (R25). -/
  | setRangeFilter (tag : Byte) (body : List Byte)
  /-- OPEN_JOB (R158). -/
  | openJob (tag : Byte) (body : List Byte)
  /-- LOAD_PIECES (R27). -/
  | loadPieces (tag : Byte) (body : List Byte)
  /-- START_LINE (R159). -/
  | startLine (tag : Byte) (body : List Byte)
  /-- PAUSE (R162). -/
  | pause (tag : Byte) (body : List Byte)
  /-- RESUME (R165). -/
  | resume (tag : Byte) (body : List Byte)
  /-- STOP_LINE (R166). -/
  | stopLine (tag : Byte) (body : List Byte)
  /-- END_JOB (R167). -/
  | endJob (tag : Byte) (body : List Byte)
  /-- ABORT_JOB (R170). -/
  | abortJob (tag : Byte) (body : List Byte)
  /-- RECOVER (R172). -/
  | recover (tag : Byte) (body : List Byte)
  /-- RESTART (R157). -/
  | restart (tag : Byte) (body : List Byte)
  /-- STATION_CONTROL_ENABLE: StationControl whose action byte is not Disable (R109). -/
  | stationControlEnable (tag : Byte) (body : List Byte)
  /-- STATION_CONTROL_DISABLE: StationControl whose action byte is Disable (R109). -/
  | stationControlDisable (tag : Byte) (body : List Byte)
  /-- CLOSE_TRAY (R137). -/
  | closeTray (tag : Byte) (body : List Byte)
  /-- VOID_PIECE (R40). -/
  | voidPiece (tag : Byte) (body : List Byte)
  /-- RELEASE_STRAY (R41). -/
  | releaseStray (tag : Byte) (body : List Byte)
  /-- READ_DIVERT_LIST (R42). -/
  | readDivertList (tag : Byte) (body : List Byte)
  /-- QUERY_PIECE (R43). -/
  | queryPiece (tag : Byte) (body : List Byte)
  /-- FETCH_MANIFEST_NEXT: FetchManifest whose mode byte is not REPEAT (R149). -/
  | fetchManifestNext (tag : Byte) (body : List Byte)
  /-- FETCH_MANIFEST_REPEAT: FetchManifest whose mode byte is REPEAT (R150). -/
  | fetchManifestRepeat (tag : Byte) (body : List Byte)
  /-- READ_RECORD: a READ record with its tag; `none` is status UNREADABLE (R1). -/
  | readRecord (tag : Byte) (mark : Option RawMark)
  /-- SHEET_END: the SHEET_END record with its tag (R3). -/
  | sheetEnd (tag : Byte)
  /-- SCAN_RECORD: the exit scanner's record; `none` is status NO_READ (R113). -/
  | scanRecord (piece : Option (BitVec 24))
  /-- WEIGHT_RECORD: the scale's record, a signed weight in centigrams (R114, R195). -/
  | weightRecord (weight : BitVec 24)
  /-- INSTRUMENT_RECORD_DISCARD: bytes that arrive at one port, from a 0xA5 on, and bring a faulty record (R195). -/
  | instrumentRecordDiscard (port : InstrumentPort) (bytes : List Byte)
  /-- INSTRUMENT_GAP_TIMEOUT: these bytes arrive at one port, and after them more than 5 ms pass without a byte (R195). -/
  | instrumentGapTimeout (port : InstrumentPort) (bytes : List Byte)
  /-- FEED_REQUEST (R5). -/
  | feedRequest
  /-- FEED_TIMEOUT (R7). -/
  | feedTimeout
  /-- SHEET_GATE_OPEN (R83). -/
  | sheetGateOpen
  /-- SHEET_IN (R83). -/
  | sheetIn
  /-- RELEASE_START (R84). -/
  | releaseStart
  /-- RELEASE_COMPLETION (R86, R87). -/
  | releaseCompletion
  /-- RELEASE_TIMEOUT (R93). -/
  | releaseTimeout
  /-- EARLY_BIN_CLEAR (R88). -/
  | earlyBinClear
  /-- PLATE_MOVE_START (R89). -/
  | plateMoveStart
  /-- MOVE_COMPLETION (R90). -/
  | moveCompletion
  /-- MOVE_TIMEOUT (R93). -/
  | moveTimeout
  /-- FOLD_START (R90). -/
  | foldStart
  /-- FOLD_COMPLETION (R91). -/
  | foldCompletion
  /-- FOLD_TIMEOUT (R93). -/
  | foldTimeout
  /-- INDEX_START (R99). -/
  | indexStart
  /-- INDEX_COMPLETION (R100). -/
  | indexCompletion
  /-- INDEX_TIMEOUT (R122). -/
  | indexTimeout
  /-- DROP_REQUEST (R106). -/
  | dropRequest (n : StationId)
  /-- DROP_COMPLETION (R107). -/
  | dropCompletion (n : StationId) (result : DropResult)
  /-- DROP_TIMEOUT (R107). -/
  | dropTimeout (n : StationId)
  /-- REFILL_ATTEMPT_START (R108). -/
  | refillAttemptStart (n : StationId)
  /-- REFILL_COMPLETION (R108). -/
  | refillCompletion (n : StationId) (result : RefillResult)
  /-- REFILL_TIMEOUT (R108). -/
  | refillTimeout (n : StationId)
  /-- INSERT_REQUEST (R111). -/
  | insertRequest
  /-- INSERT_COMPLETION (R111). -/
  | insertCompletion (result : InsertResult)
  /-- INSERT_TIMEOUT (R111). -/
  | insertTimeout
  /-- ENVELOPE_REFILL_START (R112). -/
  | envelopeRefillStart
  /-- ENVELOPE_REFILL_COMPLETION (R112). -/
  | envelopeRefillCompletion (result : RefillResult)
  /-- ENVELOPE_REFILL_TIMEOUT (R112). -/
  | envelopeRefillTimeout
  /-- SCAN_REQUEST (R113). -/
  | scanRequest
  /-- SCAN_TIMEOUT (R113). -/
  | scanTimeout
  /-- WEIGH_REQUEST (R114). -/
  | weighRequest
  /-- WEIGH_TIMEOUT (R114). -/
  | weighTimeout
  /-- BIN_ASSIGNMENT (R129). -/
  | binAssignment
  /-- BIN_ENTRY: the bin entry sensor, with the code of the bin it names (R118). -/
  | binEntry (bin : Byte)
  /-- DELIVERY_TIMEOUT (R118). -/
  | deliveryTimeout
  /-- LATE_BIN_CLEAR (R117). -/
  | lateBinClear
  /-- SORT_BIN_CLEAR: a sort bin's clear, with the code of the bin (R134). -/
  | sortBinClear (bin : Byte)
  /-- EXIT_CLEAR_CHANGE: the exit-clear input's new level, high is `true` (R119). -/
  | exitClearChange (high : Bool)
  /-- JAM_SENSOR: zone code (FEED 0 to SORT 3), sensor number 1 to 4, and whether it is now blocked (R120). -/
  | jamSensor (zone sensor : Byte) (blocked : Bool)
  /-- JAM_TIMER_EXPIRY: the jam timer of a zone's sensor expires (R120). -/
  | jamTimerExpiry (zone sensor : Byte)
  /-- KEYSWITCH: the keyswitch is turned (R163). -/
  | keyswitch (position : KeyPosition)
  /-- INTERLOCK_OPEN (R173). -/
  | interlockOpen
  /-- INTERLOCK_CLOSED (R174). -/
  | interlockClosed
  deriving DecidableEq, Repr

end Sys2Proof
end

