-- ==== Sys2Proof/Config.lean ====
section
/-! DEFINITION. What the device fixes: the capacities of R193 and the constants the rules name, and the one
value the handbook leaves without a number (a free value, `Config.interlockReasonCode`). -/

namespace Sys2Proof

/-- R193: the part code. -/
def Config.partCode : Nat := 0x4410

/-- R193: the hardware revision, "3 for the parts this handbook describes". -/
def Config.hardwareRevision : Nat := 3

/-- R29, R193: records in the piece queue. -/
def Config.queueCapacity : Nat := 128

/-- R34, R193: piece numbers in the completion window. -/
def Config.windowSize : Nat := 2048

/-- R37, R193: entries in the divert list. -/
def Config.divertCapacity : Nat := 128

/-- R44, R193: set records. -/
def Config.poolSize : Nat := 16

/-- R148, R193: entries in the tray manifest. -/
def Config.manifestCapacity : Nat := 64

/-- R189, R193: entries in the report queue. -/
def Config.reportCapacity : Nat := 64

/-- 00_scope, Units: the greatest piece number. -/
def Config.maxPiece : Nat := 16777215

/-- R46, R151: where a 32-bit count stops. -/
def Config.counterMax : Nat := 4294967295

/-- R37, R127: the greatest divert number and the greatest tray number. -/
def Config.maxNumber : Nat := 65535

/-- R62: the plate range, 500 to 2400 tenths, "fixed and is not a field of the configuration". -/
def Config.plateMin : Int := 500

/-- R62: the upper end of the plate range. -/
def Config.plateMax : Int := 2400

/-- R14, R17: the most sheets decided into one set or bundle. -/
def Config.maxSheets : Nat := 24

/-- R1: the places for kept reads of one sheet. -/
def Config.maxReads : Nat := 4

/-- FREE VALUE (log entry 1). R174 names a stop reason INTERLOCK which the list of reasons in R155 does not hold, and
R155's list is what numbers the reasons (11.6). No rule gives the code that the Status reply carries for it. -/
opaque Config.interlockReasonCode : Byte

end Sys2Proof
end

