-- ==== Sys2Proof/Machine/Types.lean ====
section
/-! DEFINITION. The handbook's enumerations and records, each as plain data, in the handbook's order of values
(11.6 codes an enumeration from 0 in the order in which its values are listed). -/

namespace Sys2Proof.Machine

/-! ### Enumerations -/

/-- The twelve line states (chapter 9, R154). -/
inductive LineState where
  | standby | ready | jobIdle | purge | proving | running
  | pausing | paused | runout | sweep | faultStop | interlock
  deriving DecidableEq, Repr

/-- Collation states (R4). -/
inductive CollState where
  | idle | setStart | inSet | hunt
  deriving DecidableEq, Repr

/-- Feed hold (R4, R5): the first feed condition not met, or NONE. -/
inductive FeedHold where
  | line | sheet | accumulator | records | reserve | queue | none
  deriving DecidableEq, Repr

/-- Window states of a piece number (R34). -/
inductive PieceState where
  | free | held | diverted | missing | delivered | voided
  deriving DecidableEq, Repr

/-- Match modes (R158). -/
inductive MatchMode where
  | sequence | lookup
  deriving DecidableEq, Repr

/-- Fault kinds, in the order of the bits of 11.6. -/
inductive FaultKind where
  | unknownPiece | duplicatePiece | countMismatch | shortSet | longSet | sheetOrder | unreadable
  | markConflict | unattributed | rangeExcluded | hostPull | foldCapacity | foldUnfit | foldMarginal
  | overfill | overweight | stationOff | insertMiss | insertDouble | envelopeMiss | insertFail
  | windowNoRead | windowMismatch | weightMismatch | disturbed | aborted
  deriving DecidableEq, Repr

/-- Set stages (R43): ON_TRACK carries the position. -/
inductive Stage where
  | accumulating | complete | folding | buffered | onTrack (position : Position) | inTransport
  deriving DecidableEq, Repr

/-- Divert points (R37). -/
inductive DivertPoint where
  | early | late | inPlace
  deriving DecidableEq, Repr

/-- Kinds of divert entry (R37). -/
inductive DivertKind where
  | matched | stray
  deriving DecidableEq, Repr

/-- The sense of the range filter (R24). -/
inductive RangeSense where
  | inside | outside
  deriving DecidableEq, Repr

/-- The nine monitors, in the order READ, ENVELOPE, EXIT, S1 to S6 (R48). -/
inductive MonitorId where
  | read | envelope | exit | station (n : StationId)
  deriving DecidableEq, Repr

/-- Causes of a trip, in the order of R55. -/
inductive TripCause where
  | unreadable | markConflict | wrapGap | hunt | envelopeMiss | insertFail | windowNoRead
  | windowMismatch | insertMiss | insertDouble | refillFail
  deriving DecidableEq, Repr

/-- Trip actions of a station monitor, in the order of R103. -/
inductive TripAction where
  | disable | stop
  deriving DecidableEq, Repr

/-- Outcomes of a trip, in the order of R55. -/
inductive TripOutcome where
  | stopped | alreadyStopped | atRest | disabled
  deriving DecidableEq, Repr

/-- Proving states (R57). -/
inductive ProvingState where
  | none | active | passed | failed | abandoned
  deriving DecidableEq, Repr

/-- Fold types (R63). -/
inductive FoldType where
  | flat | single | letter | zig
  deriving DecidableEq, Repr

/-- Marginal policies (R63). -/
inductive MarginalPolicy where
  | accept | divert
  deriving DecidableEq, Repr

/-- Station states, in the order of R104. -/
inductive StationState where
  | off | refilling | ready | dropping | empty | tripped
  deriving DecidableEq, Repr

/-- Causes of a STATION_CHANGE, in the order of R110. -/
inductive StationCause where
  | host | trip | refillExhausted | refillDone | job | resume
  deriving DecidableEq, Repr

/-- The insert head's pocket (R97, R111). -/
inductive Pocket where
  | staged | refilling | empty
  deriving DecidableEq, Repr

/-- The four jam zones (R97). -/
inductive Zone where
  | feed | fold | track | sort
  deriving DecidableEq, Repr

/-- Tray levels and group levels, in the order of R143. A group level is DIRECT or AREA (R126). -/
inductive Level where
  | direct | area | mixed
  deriving DecidableEq, Repr

/-- Causes of a tray's close, in the order of R132. -/
inductive CloseCause where
  | count | weight | host | sweep | abort | withdraw
  deriving DecidableEq, Repr

/-- States of a BIN_CHANGE report, in the order of 11.6. -/
inductive BinReport where
  | open | swap | free | full | cleared | ignored
  deriving DecidableEq, Repr

/-- The bins that a report may name: a sort bin, or the early or late divert bin (11.6). -/
inductive AnyBin where
  | sort (b : BinId) | early | late
  deriving DecidableEq, Repr

/-- Where the late divert gate stands (R116, pin summary). -/
inductive GateSide where
  | divert | sort
  deriving DecidableEq, Repr

/-- Lock modes (R179). -/
inductive LockMode where
  | open | keyed | runLocked | powerLocked
  deriving DecidableEq, Repr

/-- Lock groups (R179). -/
inductive LockGroup where
  | plant | postal
  deriving DecidableEq, Repr

/-- Runout targets (R154). -/
inductive RunoutTarget where
  | none | jobIdle | sweep
  deriving DecidableEq, Repr

/-- Causes of a reset (R193). -/
inductive ResetCause where
  | powerOn | resetLine | restart
  deriving DecidableEq, Repr

/-- Reasons of a STATE_CHANGE, in the order of R155, each with its detail; INTERLOCK, which only the stop reason takes
(R174), stands last. -/
inductive Reason where
  | powerOn | resetLine | restart | configure | openJob | host | key | feederEmpty
  | stationEmpty (n : StationId) | pauseDone | purgeDone | provingPassed | provingFailed | runoutDone
  | sweepDone | abort | readMonitor | envelopeMonitor | exitMonitor | stationMonitor (n : StationId)
  | releaseTimeout | moveTimeout | foldTimeout | indexTimeout | weighTimeout | deliveryTimeout
  | jam (zone : Zone) (sensor : Fin 4) | interlockOpen | interlockClosed | recover | interlock
  deriving DecidableEq, Repr

/-- Causes of a LINK_ERROR, in the order of 11.6. -/
inductive LinkErrorCause where
  | length | crc | gap | framing | overrun
  deriving DecidableEq, Repr

/-- Causes of a JOB_ENDED report (R169, R170). -/
inductive JobEndCause where
  | ended | abort
  deriving DecidableEq, Repr

/-- Result codes (11.6). -/
inductive Result where
  | ok | adjusted | unknownType | badLength | badValue | wrongState | locked | queueFull
  | duplicatePiece | outOfWindow | notReprint | notDiverted | inFlight | noSpace | notFound
  deriving DecidableEq, Repr

/-! ### Timers -/

/-- A timeout that runs: the line time at which it started and its length in ms. -/
structure Timer where
  start : LineTime
  limit : Nat
  deriving DecidableEq, Repr

/-! ### Setup Store (chapter 10) -/

/-- Parameters of a monitor: the weight of one fault, the good events a step down takes, the threshold (R48). -/
structure MonParams where
  u : Nat
  d : Nat
  t : Nat
  deriving DecidableEq, Repr

/-- The line configuration, its fields in the order of R176. -/
structure LineConfig where
  sheetLength : Nat
  sheetWidth : Nat
  grammage : Nat
  sheetCaliper : Nat
  envelopeDepth : Nat
  clearance : Nat
  windowTop : Nat
  windowBottom : Nat
  envelopeWeight : Nat
  fillMax : Nat
  scaleEnabled : Bool
  weightBase : Nat
  weightPerSheet : Nat
  maskDefault : Mask
  huntCount : Nat
  skipDefault : Nat
  queueLow : Nat
  purgeCount : Nat
  feedTime : Nat
  releaseTime : Nat
  foldTime : Nat
  moveTime : Nat
  indexTime : Nat
  insertTime : Nat
  envelopeRefillTime : Nat
  scanTime : Nat
  weighTime : Nat
  deliveryTime : Nat
  jamFeed : Nat
  jamFold : Nat
  jamTrack : Nat
  jamSort : Nat
  readMon : MonParams
  envelopeMon : MonParams
  exitMon : MonParams
  provingP : Nat
  provingM : Nat
  trayCount : Nat
  trayWeight : Nat
  earlyCapacity : Nat
  lateCapacity : Nat
  deriving DecidableEq, Repr

/-- A record of the station table (R103). -/
structure StationRecord where
  enabled : Bool
  weight : Nat
  caliper : Nat
  dropTimeout : Nat
  refillTimeout : Nat
  trip : TripAction
  mon : MonParams
  deriving DecidableEq, Repr

/-- An entry of the fold plan table that is set (R63). -/
structure FoldPlan where
  type : FoldType
  offset : Nat
  block : Nat
  nest : Nat
  panelMin : Nat
  capacity : Nat
  policy : MarginalPolicy
  deriving DecidableEq, Repr

/-- A valid entry of the sort scheme (R124): the length of its digit string, the five characters as written, the group. -/
structure SchemeEntry where
  len : Nat
  chars : List Byte
  group : Nat
  deriving DecidableEq, Repr

/-- The PLANT group: its tables, lock mode and revision (chapter 10). -/
structure Plant where
  config : Option LineConfig
  stations : Vector StationRecord 6
  classes : Vector StationSet 16
  plans : Vector (Option FoldPlan) 8
  mode : LockMode
  revision : Revision
  deriving DecidableEq, Repr

/-- The POSTAL group: its tables, lock mode and revision (chapter 10). The weight steps are the bounds of steps 0 to
m − 1 when the table is set (R141). -/
structure Postal where
  scheme : Vector (Option SchemeEntry) 256
  levels : Vector Level 255
  steps : Option (List Nat)
  rates : Vector (Vector Nat 8) 3
  minDirect : Nat
  minArea : Nat
  mode : LockMode
  revision : Revision
  deriving DecidableEq, Repr

/-! ### Piece Register (chapter 2) -/

/-- A piece record (R26). -/
structure PieceRecord where
  piece : Nat
  sheets : Nat
  insertClass : Fin 16
  plan : Fin 8
  key : Option Nat
  pull : Bool
  reprint : Bool
  deriving DecidableEq, Repr

/-- A decoded mark (chapter 1). -/
structure Mark where
  job : Nat
  piece : Nat
  index : Nat
  count : Nat
  wrap : Nat
  deriving DecidableEq, Repr

/-- A scan result (R113). -/
inductive ScanResult where
  | read (piece : Nat) | noRead
  deriving DecidableEq, Repr

/-- A set record (R44). `insertDone` is the model's own: whether an insert result has been taken for the set (R98). -/
structure SetRecord where
  piece : Option Nat
  record : Option PieceRecord
  governing : Nat
  provingStart : Bool
  received : Nat
  lastIndex : Option Nat
  lastWrap : Option Nat
  stationsNeeded : StationSet
  stage : Stage
  faults : FaultSet
  heff : Option Nat
  stop1 : Option Nat
  stop2 : Option Nat
  marginal : Bool
  caliper : Option Nat
  expected : Option Nat
  stationsDone : StationSet
  insertDone : Bool
  measured : Option Nat
  scan : Option ScanResult
  bin : Option BinId
  tray : Option Nat
  group : Option Nat
  step : Option Nat
  deriving DecidableEq, Repr

/-- A divert entry (R37). -/
structure DivertEntry where
  number : Nat
  kind : DivertKind
  piece : Option Nat
  reasons : FaultSet
  point : DivertPoint
  sheets : Nat
  time : LineTime
  deriving DecidableEq, Repr

/-- One range of the range filter (R24). -/
structure PieceRange where
  enabled : Bool
  low : Nat
  high : Nat
  deriving DecidableEq, Repr

/-- The range filter (R24). -/
structure RangeFilter where
  sense : RangeSense
  ranges : Vector PieceRange 4
  deriving DecidableEq, Repr

/-- The job's identity (R47, R158). -/
structure Job where
  code : Nat
  first : Nat
  mode : MatchMode
  mask : Mask
  skip : Nat
  deriving DecidableEq, Repr

/-- The job counters (R46). -/
structure Counters where
  started : Nat
  good : Nat
  faulted : Nat
  delivered : Nat
  divertedMatched : Nat
  divertedStray : Nat
  missing : Nat
  voided : Nat
  deriving DecidableEq, Repr

/-- The Piece Register. The window holds the piece numbers whose state is not FREE, in rising order; a number of the
window that is not listed is FREE (R34). The base reads 0 while no job is open. -/
structure Register where
  queue : List PieceRecord
  base : Nat
  window : List (Nat × PieceState)
  diverts : List DivertEntry
  nextDivert : Nat
  pool : Vector (Option SetRecord) 16
  filter : RangeFilter
  job : Option Job
  counters : Counters
  lowArmed : Bool
  deriving DecidableEq, Repr

/-! ### Collation Unit (chapter 1) -/

/-- The sheet in transit (R4): none; a feed outstanding, with the tag once fixed, the kept reads in arrival order and
the feed timeout; or a decided sheet on its way to its sheet-in event, with its set and whether it closed that set. -/
inductive Transit where
  | none
  | feeding (tag : Option Byte) (reads : List Mark) (timer : Timer)
  | decided (slot : Slot) (closes : Bool)
  deriving DecidableEq, Repr

/-- The Collation Unit (R4). -/
structure Collation where
  state : CollState
  current : Option Slot
  expectedIndex : Nat
  transit : Transit
  closedTag : Option Byte
  lastMark : Option (Nat × Nat)
  expectedWrap : Option Nat
  huntCount : Nat
  starvationArmed : Bool
  feedHold : FeedHold
  deriving DecidableEq, Repr

/-! ### Monitor Bank (chapter 3) -/

/-- A monitor's level and good count (R48). -/
structure MonLevel where
  level : Nat
  good : Nat
  deriving DecidableEq, Repr

/-- The Monitor Bank (R48, R57). -/
structure MonitorBank where
  read : MonLevel
  envelope : MonLevel
  exit : MonLevel
  stations : Vector MonLevel 6
  proving : ProvingState
  provingGood : Nat
  provingFault : Nat
  deriving DecidableEq, Repr

/-! ### Set Handler (chapter 5) -/

/-- The sheet gate (R82, R83): CLOSED, with the set of a sheet held at it if any, or PASSING a sheet of a set. -/
inductive SheetGate where
  | closed (held : Option Slot)
  | passing (slot : Slot)
  deriving DecidableEq, Repr

/-- The release item (R82). -/
inductive Release where
  | none | pending | early (timer : Timer) | forward (timer : Timer)
  deriving DecidableEq, Repr

/-- The folder state (R82). A move names the plates that move with their stops. -/
inductive Folder where
  | idle
  | moving (plate1 plate2 : Option Nat) (timer : Timer)
  | waiting
  | folding (timer : Timer)
  deriving DecidableEq, Repr

/-- The Set Handler (R82). -/
structure SetHandler where
  gate : SheetGate
  accumulator : Option Slot
  release : Release
  earlyCount : Nat
  earlyArmed : Bool
  folder : Folder
  folderSet : Option Slot
  plate1 : Option Nat
  plate2 : Option Nat
  buffer : Option Slot
  deriving DecidableEq, Repr

/-! ### Track Controller (chapter 6) -/

/-- A refill sequence (R104): none; due, with the attempt to be started next; or an attempt outstanding. -/
inductive RefillSeq where
  | none
  | waiting (attempt : Nat)
  | running (attempt : Nat) (timer : Timer)
  deriving DecidableEq, Repr

/-- A station's runtime record (R104). `announce` is the model's own: the station left OFF, EMPTY or TRIPPED for
REFILLING and its REFILL_DONE report is still due (R110). -/
structure Station where
  state : StationState
  seq : RefillSeq
  pendingDisable : Bool
  drop : Option Timer
  announce : Bool
  deriving DecidableEq, Repr

/-- The insert head (R97, R111, R112). -/
structure InsertHead where
  pocket : Pocket
  insert : Option Timer
  refill : Option Timer
  deriving DecidableEq, Repr

/-- A jam sensor, as last taken from it, with its jam timer (R97, R120). -/
structure JamSensor where
  blocked : Bool
  timer : Option Timer
  deriving DecidableEq, Repr

/-- A jam zone (R97, R120): JAMMED with the blocked sensor, or CLEAR. `motion` is the model's own: whether the zone was
in motion when its jam timers were last looked at. -/
structure JamZone where
  jammed : Option (Fin 4)
  motion : Bool
  sensors : Vector JamSensor 4
  deriving DecidableEq, Repr

/-- The Track Controller (R97), with the exit-clear input as last taken (R119), the late gate (R116) and two marks of the
model's own: an assignment request for the carrier at P11 is due (R116, R133), and its SORT_BLOCKED has been queued. -/
structure Track where
  carriers : Vector (Option Slot) 12
  index : Option Timer
  purgePitches : Nat
  stations : Vector Station 6
  head : InsertHead
  scan : Option Timer
  weigh : Option Timer
  lateCount : Nat
  lateArmed : Bool
  transport : Option Slot
  delivery : Option Timer
  exitClear : Bool
  exitArmed : Bool
  zones : Vector JamZone 4
  lateGate : GateSide
  assignDue : Bool
  sortReported : Bool
  deriving DecidableEq, Repr

/-! ### Presort Unit (chapter 7) -/

/-- The tray record of an OPEN bin (R128). -/
structure Tray where
  number : Nat
  group : Nat
  count : Nat
  weight : Nat
  steps : Vector Nat 8
  first : Nat
  last : Nat
  openTime : LineTime
  deriving DecidableEq, Repr

/-- A bin's state, an OPEN bin with its tray (R127). -/
inductive BinState where
  | free
  | open (tray : Tray)
  | swap
  deriving DecidableEq, Repr

/-- A sort bin (R127). -/
structure Bin where
  state : BinState
  lastTray : Option Nat
  onWay : Nat
  deriving DecidableEq, Repr

/-- The Presort Unit (R127). The sweep position is an index into B1 to B10, BR. -/
structure Presort where
  bins : Vector Bin 11
  nextTray : Option Nat
  sweepPosition : Option Nat
  deriving DecidableEq, Repr

/-! ### Postage and Manifest Unit (chapter 8) -/

/-- A manifest entry (R147). -/
structure ManifestEntry where
  job : Nat
  tray : Nat
  bin : BinId
  group : Nat
  count : Nat
  weight : Nat
  steps : Vector Nat 8
  first : Nat
  last : Nat
  openTime : LineTime
  closeTime : LineTime
  cause : CloseCause
  level : Level
  postage : Nat
  revision : Revision
  withdrawn : Nat
  deriving DecidableEq, Repr

/-- The postal totals of one level (R151). -/
structure LevelTotals where
  trays : Nat
  pieces : Nat
  postage : Nat
  deriving DecidableEq, Repr

/-- The Postage and Manifest Unit (R148, R150, R151). -/
structure Postage where
  manifest : List ManifestEntry
  retained : List ManifestEntry
  direct : LevelTotals
  area : LevelTotals
  mixed : LevelTotals
  closedPieces : Nat
  withdrawnAfter : Nat
  deriving DecidableEq, Repr

/-! ### Line Control (chapter 9) -/

/-- A selection of the sections FEED, SET and TRACK (R154). -/
structure Sections where
  feed : Bool
  set : Bool
  track : Bool
  deriving DecidableEq, Repr

/-- Line Control (R154). -/
structure LineControl where
  state : LineState
  returnState : Option LineState
  origin : Option LineState
  stopReason : Option Reason
  runoutTarget : RunoutTarget
  pendingPause : Sections
  purgeHeldDone : Bool
  key : KeyPosition
  interlock : InterlockInput
  deriving DecidableEq, Repr

/-! ### Message Link (chapter 11) -/

/-- A report: its kind and its body (11.6, Report record). -/
inductive Report where
  | pieceDelivered (piece : Option Nat) (tray : Option Nat) (bin : Option BinId) (weight : Nat)
      (step : Option Nat) (marginal disturbed unconfirmed : Bool)
  | pieceDiverted (number : Nat) (kind : DivertKind) (piece : Option Nat) (reasons : FaultSet)
      (point : DivertPoint) (sheets : Nat)
  | pieceMissing (piece cause : Nat)
  | sheetGap (lost : Nat) (lastMark : Option (Nat × Nat)) (newPiece newIndex : Nat)
  | queueLow (count base : Nat)
  | queueStarved (base inFlight : Nat)
  | stateChange (new old : LineState) (reason : Reason)
  | monitorTrip (monitor : MonitorId) (cause : TripCause) (level : Nat) (params : MonParams)
      (action : TripAction) (outcome : TripOutcome) (piece : Option Nat)
  | stationChange (station : StationId) (before after : StationState) (cause : StationCause)
  | binChange (bin : AnyBin) (state : BinReport) (tray group count capacity : Option Nat)
      (cause : Option CloseCause)
  | trayClosed (tray : Nat) (bin : BinId) (group count : Nat) (level : Level) (postage : Nat)
      (cause : CloseCause) (step weight : Option Nat)
  | exitBlocked (slot : Option Slot) (transport : Bool)
  | sortBlocked (piece : Option Nat) (group : Nat) (bin : BinId)
  | linkError (cause : LinkErrorCause) (tag type : Option Byte)
  | provingDone (outcome : ProvingState) (good fault p m : Nat) (divert : Option Nat)
  | jobEnded1 (job : Nat) (cause : JobEndCause) (diverts trays started good : Nat)
  | jobEnded2 (job faulted delivered divertedMatched : Nat)
  | jobEnded3 (job divertedStray missing voided : Nat)
  deriving DecidableEq, Repr

/-- An entry of the report queue (R189). -/
structure ReportEntry where
  report : Report
  repeats : Nat
  time : LineTime
  deriving DecidableEq, Repr

/-- A reply's BODY (R188): the result code and the bytes of the fields after it. -/
structure Reply where
  result : Result
  fields : List Byte
  deriving DecidableEq, Repr

/-- The request that is held until the last byte of its reply has left (R187). -/
structure Held where
  tag : Byte
  type : Byte
  reply : Reply
  restart : Bool
  deriving DecidableEq, Repr

/-- The receive side (R185): hunting, or gathering with the bytes of the frame so far from its SOF on. -/
inductive Receive where
  | hunting
  | gathering (bytes : List Byte)
  deriving DecidableEq, Repr

/-- The bytes of the frame being gathered, none while hunting. -/
def Receive.bytes : Receive → List Byte
  | .hunting => []
  | .gathering bs => bs

/-- The receive side that holds these bytes of a frame. -/
def Receive.ofBytes : List Byte → Receive
  | [] => .hunting
  | bs => .gathering bs

/-- The three instrument ports (R195): at each, the bytes of the record being gathered from its 0xA5 on, none while the port
looks for 0xA5. -/
structure Ports where
  reader : List Byte
  scanner : List Byte
  scale : List Byte
  deriving DecidableEq, Repr

/-- The bytes that a port holds. -/
def Ports.bytes (p : Ports) : InstrumentPort → List Byte
  | .reader => p.reader
  | .scanner => p.scanner
  | .scale => p.scale

/-- The bytes that a port holds, written. -/
def Ports.put (p : Ports) (port : InstrumentPort) (bytes : List Byte) : Ports :=
  match port with
  | .reader => { p with reader := bytes }
  | .scanner => { p with scanner := bytes }
  | .scale => { p with scale := bytes }

/-- The Message Link (chapter 11). The attention line is asserted exactly while `reports` is not empty (R191). -/
structure Link where
  receive : Receive
  held : Option Held
  reports : List ReportEntry
  overflow : Bool
  rate : LinkRate
  resetCause : ResetCause
  deriving DecidableEq, Repr

end Sys2Proof.Machine
end

