-- ==== Sys2Proof/Machine/Flags.lean ====
section
/-! DEFINITION. Sets coded in bits: fault kinds (11.6), stations (R102) and the compare mask (R3). -/

namespace Sys2Proof.Machine

/-- 11.6, Fault kinds in a reason set: the bit of a kind, counted from the lowest. -/
def faultBit : FaultKind → Nat
  | .unknownPiece => 0 | .duplicatePiece => 1 | .countMismatch => 2 | .shortSet => 3 | .longSet => 4
  | .sheetOrder => 5 | .unreadable => 6 | .markConflict => 7 | .unattributed => 8 | .rangeExcluded => 9
  | .hostPull => 10 | .foldCapacity => 11 | .foldUnfit => 12 | .foldMarginal => 13 | .overfill => 14
  | .overweight => 15 | .stationOff => 16 | .insertMiss => 17 | .insertDouble => 18 | .envelopeMiss => 19
  | .insertFail => 20 | .windowNoRead => 21 | .windowMismatch => 22 | .weightMismatch => 23
  | .disturbed => 24 | .aborted => 25

/-- The set holding one kind. -/
def faultMask (k : FaultKind) : FaultSet := 1#32 <<< faultBit k

/-- A set with a kind added; a set holds each kind once (R80). -/
def addKind (f : FaultSet) (k : FaultKind) : FaultSet := f ||| faultMask k

/-- Whether a set holds a kind. -/
def hasKind (f : FaultSet) (k : FaultKind) : Bool := f.getLsbD (faultBit k)

/-- A set with a kind added when a condition holds. -/
def addKindIf (c : Bool) (k : FaultKind) (f : FaultSet) : FaultSet := if c then addKind f k else f

/-- R58: the reasons that the host itself asked for. -/
def hostAskedKinds : FaultSet := faultMask .hostPull ||| faultMask .rangeExcluded

/-- R58: whether a reason set holds a kind other than HOST_PULL and RANGE_EXCLUDED. -/
def countsAsFault (f : FaultSet) : Bool := f &&& ~~~hostAskedKinds ≠ 0

/-- The stations S1 to S6 in order. -/
def allStations : List StationId := [0, 1, 2, 3, 4, 5]

/-- Whether a station set names a station. -/
def hasStation (t : StationSet) (n : StationId) : Bool := t.getLsbD n.val

/-- A station set with a station added. -/
def addStation (t : StationSet) (n : StationId) : StationSet := t ||| (1#6 <<< n.val)

/-- The stations a set names, in order. -/
def stationList (t : StationSet) : List StationId := allStations.filter (hasStation t)

/-- R1, R3: whether two reads are equal in the fields of the compare mask. -/
def marksAgree (m : Mask) (a b : Mark) : Bool :=
  (!m.getLsbD 0 || a.job == b.job) && (!m.getLsbD 1 || a.piece == b.piece) &&
  (!m.getLsbD 2 || a.index == b.index) && (!m.getLsbD 3 || a.count == b.count) &&
  (!m.getLsbD 4 || a.wrap == b.wrap)

end Sys2Proof.Machine
end

