-- ==== Sys2Proof/Machine/Fold.lean ====
section
/-! DEFINITION. The Fold Planner's arithmetic (chapter 4): seven stages over exact integers, with the roundings the rules
name. The planner holds no state. -/

namespace Sys2Proof.Machine

/-- R69: layers of a folded sheet (R78). -/
def layers : FoldType → Nat
  | .flat => 1 | .single => 2 | .letter => 3 | .zig => 3

/-- R68: the tallest packet that leaves the clearance above it. -/
def fitHi (c : LineConfig) : Int := (c.envelopeDepth : Int) - c.clearance

/-- R68: the shortest packet whose address bottom lies at or above wb. -/
def windowLo (c : LineConfig) (p : FoldPlan) : Int := (c.envelopeDepth : Int) + p.offset + p.block - c.windowBottom

/-- R68: the tallest packet whose address top lies at or below wt. -/
def windowHi (c : LineConfig) (p : FoldPlan) : Int := (c.envelopeDepth : Int) + p.offset - c.windowTop

/-- The least integer not below `a / b`, for `b > 0`. -/
def ceilDiv (a b : Int) : Int := -((-a) / b)

/-- R69: the lower panel bound; none for FLAT. -/
def panelLo (length : Int) (p : FoldPlan) : Option Int :=
  match p.type with
  | .flat => none
  | .single => some (ceilDiv (length + p.nest) 2)
  | .letter => some (ceilDiv (length + 3 * p.nest) 3)
  | .zig => some (ceilDiv (length + p.nest) 3)

/-- R69: the upper panel bound; none for FLAT. -/
def panelHi (length : Int) (p : FoldPlan) : Option Int :=
  match p.type with
  | .flat => none
  | .single => some (length - p.panelMin)
  | .letter => some ((length + p.nest - p.panelMin) / 2)
  | .zig => some ((length + p.nest - p.panelMin) / 2)

/-- R71, R72: the packet height for a folded type, and whether the set is marked at stage 3. -/
def chooseHeight (fit wlo whi plo phi : Int) : Int × Bool :=
  let lo := max wlo plo
  let hi := min fit (min whi phi)
  if lo ≤ hi then ((lo + hi) / 2, false) else (min fit lo, true)

/-- R73: the creep allowance, in tenths. -/
def creep (n caliper : Nat) : Int := ceilDiv (((n : Int) - 1) * caliper * 3) 200

/-- R74: rounding to the nearest multiple of 5. -/
def roundStop (x : Int) : Int :=
  let r := x % 5
  if r ≤ 2 then x - r else x + 5 - r

/-- R74: the first stop, rounded down where rounding up would carry the packet past the envelope. -/
def roundFirstStop (x c fit : Int) : Int :=
  let r := x % 5
  if r ≤ 2 then x - r else if fit < x + 5 - r - c then x - r else x + 5 - r

/-- R75: a stop clamped to the plate range. -/
def clampStop (x : Int) : Int := max Config.plateMin (min Config.plateMax x)

/-- R79: the sheet weight in centigrams, rounded half up. -/
def sheetWeight (c : LineConfig) : Nat :=
  (2 * (c.grammage * c.sheetLength * c.sheetWidth) + 1000000) / 2000000

/-- What the computation writes into a set record (R66), and the fault kinds it adds. -/
structure FoldResult where
  heff : Option Nat
  stop1 : Option Nat
  stop2 : Option Nat
  marginal : Bool
  caliper : Option Nat
  expected : Option Nat
  faults : FaultSet
  deriving DecidableEq, Repr

/-- R66: a computation that ended at stage 1 or 2, with the one kind it added. -/
def foldEnded (k : FaultKind) : FoldResult :=
  { heff := none, stop1 := none, stop2 := none, marginal := false, caliper := none, expected := none
    faults := faultMask k }

/-- Stage 5's outcome: the stops, the effective height, and whether S2 was changed by the clamp (R74 to R76). -/
structure FoldStops where
  stop1 : Option Int
  stop2 : Option Int
  heff : Int
  stop2Clamped : Bool
  deriving DecidableEq, Repr

/-- R74 to R76: stage 5 for a packet height `h`. -/
def foldStops (c : LineConfig) (p : FoldPlan) (n : Nat) (h : Int) : FoldStops :=
  let cr := creep n c.sheetCaliper
  let s1 := clampStop (roundFirstStop (h + cr) cr (fitHi c))
  let raw2 := roundStop (h - p.nest + cr)
  let s2 := clampStop raw2
  match p.type with
  | .flat => { stop1 := none, stop2 := none, heff := h, stop2Clamped := false }
  | .single => { stop1 := some s1, stop2 := none, heff := s1 - cr, stop2Clamped := false }
  | .letter => { stop1 := some s1, stop2 := some s2, heff := s1 - cr, stop2Clamped := s2 ≠ raw2 }
  | .zig => { stop1 := some s1, stop2 := some s2, heff := s1 - cr, stop2Clamped := s2 ≠ raw2 }

/-- R77: the marginal decision, made when h_eff is at or below fit_hi. -/
def isMarginal (c : LineConfig) (p : FoldPlan) (marked : Bool) (st : FoldStops) : Bool :=
  marked || st.heff < windowLo c p || windowHi c p < st.heff ||
    (match panelLo c.sheetLength p with | some plo => st.heff < plo | none => false) || st.stop2Clamped

/-- R78: the packet caliper in micrometres. -/
def packetCaliper (c : LineConfig) (p : FoldPlan) (n insertCaliper : Nat) : Nat :=
  n * c.sheetCaliper * layers p.type + insertCaliper

/-- R80: the expected weight in centigrams. -/
def expectedWeight (c : LineConfig) (n insertWeight : Nat) : Nat :=
  c.envelopeWeight + n * sheetWeight c + insertWeight

/-- R70: whether a fold can fit at all. -/
def foldFits (c : LineConfig) (p : FoldPlan) : Bool :=
  match panelLo c.sheetLength p, panelHi c.sheetLength p with
  | some plo, some phi => plo ≤ phi && plo ≤ fitHi c
  | _, _ => (c.sheetLength : Int) ≤ fitHi c

/-- R71, R72: stage 3, with h = L and no mark for FLAT. -/
def foldHeight (c : LineConfig) (p : FoldPlan) : Int × Bool :=
  match panelLo c.sheetLength p, panelHi c.sheetLength p with
  | some plo, some phi => chooseHeight (fitHi c) (windowLo c p) (windowHi c p) plo phi
  | _, _ => (c.sheetLength, false)

/-- R66 to R80: the whole computation for `n` sheets of a plan, with the insert calipers and weights of the stations
needed summed, and the last step bound of the weight steps. -/
def foldCompute (c : LineConfig) (p : FoldPlan) (n insertCaliper insertWeight : Nat) (bound : Option Nat) : FoldResult :=
  if p.capacity < n then foldEnded .foldCapacity
  else if !foldFits c p then foldEnded .foldUnfit
  else
    let hm := foldHeight c p
    let st := foldStops c p n hm.1
    let unfit : Bool := fitHi c < st.heff
    let marginal := !unfit && isMarginal c p hm.2 st
    let cal := packetCaliper c p n insertCaliper
    let wt := expectedWeight c n insertWeight
    { heff := some st.heff.toNat, stop1 := st.stop1.map Int.toNat, stop2 := st.stop2.map Int.toNat
      marginal, caliper := some cal, expected := some wt
      faults :=
        addKindIf unfit .foldUnfit <|
        addKindIf (marginal && p.policy == .divert) .foldMarginal <|
        addKindIf (c.fillMax < cal) .overfill <|
        addKindIf (match bound with | some b => b < wt | none => false) .overweight 0 }

end Sys2Proof.Machine
end

