-- ==== Sys2Proof/Machine/Operands.lean ====
section
/-! DEFINITION. Formats (11.6): the byte order, the CRC and the check byte, the codes of the enumerations, and the
layouts of the records, request bodies and table entries, each read and written. -/

namespace Sys2Proof.Machine

/-! ### Bytes -/

/-- A number as bytes, high byte first (00_scope, Byte order). -/
def toBytes : (width : Nat) → Nat → List Byte
  | 0, _ => []
  | w + 1, n => toBytes w (n / 256) ++ [BitVec.ofNat 8 n]

/-- The number that bytes spell, high byte first. -/
def ofBytes (bs : List Byte) : Nat := bs.foldl (fun acc b => acc * 256 + b.toNat) 0

/-- The field of a width at an offset of a body. -/
def fieldAt (bs : List Byte) (offset width : Nat) : Nat := ofBytes ((bs.drop offset).take width)

/-- An absent field: every bit set in its width (11.6). -/
def absentBytes (width : Nat) : List Byte := List.replicate width 0xFF

/-- A field that may be absent (11.6). -/
def optBytes (width : Nat) : Option Nat → List Byte
  | none => absentBytes width
  | some n => toBytes width n

/-- A piece number: 3 bytes, 0 when absent (11.6). -/
def pieceBytes (p : Option Nat) : List Byte := toBytes 3 (p.getD 0)

/-- A flag as one byte. -/
def boolByte (b : Bool) : List Byte := [if b then 1 else 0]

/-- 11.6, Frame: one step of the CRC, polynomial x^16 + x^12 + x^5 + 1, most significant bit first. -/
def crcBit (crc : BitVec 16) : BitVec 16 :=
  if crc.msb then (crc <<< 1) ^^^ 0x1021#16 else crc <<< 1

/-- The CRC taken over one byte more. -/
def crcByte (crc : BitVec 16) (b : Byte) : BitVec 16 :=
  crcBit <| crcBit <| crcBit <| crcBit <| crcBit <| crcBit <| crcBit <| crcBit <|
    crc ^^^ (b.setWidth 16 <<< 8)

/-- The CRC of a run of bytes, from the initial value 0xFFFF (11.6). -/
def crc16 (bs : List Byte) : BitVec 16 := bs.foldl crcByte 0xFFFF#16

/-- The verdict on the bytes of one frame from its SOF on (R185). -/
inductive FrameVerdict where
  | incomplete
  | badLength
  | badCrc (tag type : Byte)
  | complete (tag type : Byte) (body : List Byte)
  deriving DecidableEq, Repr

/-- R185: what the receive side finds in the bytes of a frame, the SOF being the first. -/
def frameVerdict (bytes : List Byte) : FrameVerdict :=
  match bytes with
  | _sof :: len :: rest =>
    if len.toNat < 2 || 242 < len.toNat then .badLength
    else
      match rest with
      | tag :: type :: more =>
        if more.length < len.toNat then .incomplete
        else
          let body := more.take (len.toNat - 2)
          if crc16 (len :: tag :: type :: body) == BitVec.ofNat 16 (fieldAt more (len.toNat - 2) 2) then
            .complete tag type body
          else .badCrc tag type
      | _ => .incomplete
  | _ => .incomplete

/-- 11.6, Frame: a frame's bytes. -/
def frameBytes (tag type : Byte) (body : List Byte) : List Byte :=
  let covered := BitVec.ofNat 8 (body.length + 2) :: tag :: type :: body
  0xC3 :: covered ++ toBytes 2 (crc16 covered).toNat

/-- R185: one byte at the receive side, which holds the bytes of the frame it gathers, none while it hunts: the bytes it holds
then, and what it finds in them. Only 0xC3 begins a frame, and inside one it is ordinary data. -/
def gatherByte (held : List Byte) (b : Byte) : List Byte × FrameVerdict :=
  let bytes := if held = [] ∧ b ≠ 0xC3 then [] else held ++ [b]
  match frameVerdict bytes with
  | .incomplete => (bytes, .incomplete)
  | v => ([], v)

/-- R185: bytes at the receive side, one after another: the bytes it holds after the last, and what it found at each. -/
def gatherBytes : List Byte → List Byte → List Byte × List FrameVerdict
  | held, [] => (held, [])
  | held, b :: rest =>
    let first := gatherByte held b
    let others := gatherBytes first.1 rest
    (others.1, first.2 :: others.2)

/-! ### Codes of enumerations (11.6: from 0, in the order in which the values are listed) -/

/-- Result codes (11.6). -/
def resultCode : Result → Byte
  | .ok => 0x00 | .adjusted => 0x01 | .unknownType => 0x10 | .badLength => 0x11 | .badValue => 0x12
  | .wrongState => 0x13 | .locked => 0x14 | .queueFull => 0x20 | .duplicatePiece => 0x21
  | .outOfWindow => 0x22 | .notReprint => 0x23 | .notDiverted => 0x24 | .inFlight => 0x25
  | .noSpace => 0x26 | .notFound => 0x27

/-- R188: a reply's BODY: the result code, and the fields after it. -/
def Reply.body (r : Reply) : List Byte := resultCode r.result :: r.fields

/-- R188: the reply frame of a held request: its TYPE plus 0x80, and its TAG. For a TYPE of 0x80 or above the sum does not fit the one
byte that TYPE has, and it is sent modulo 256 (DESIGN CHOICE, log entry 32). -/
def Held.replyFrame (h : Held) : List Byte := frameBytes h.tag (h.type + 0x80) h.reply.body

/-- Line states, in the order of chapter 9. -/
def lineStateCode : LineState → Nat
  | .standby => 0 | .ready => 1 | .jobIdle => 2 | .purge => 3 | .proving => 4 | .running => 5
  | .pausing => 6 | .paused => 7 | .runout => 8 | .sweep => 9 | .faultStop => 10 | .interlock => 11

/-- R154: the return states in the order in which the item lists them; no other line state is one. -/
def returnStateCode : LineState → Option Nat
  | .purge => some 0 | .proving => some 1 | .running => some 2 | .runout => some 3
  | .standby | .ready | .jobIdle | .pausing | .paused | .sweep | .faultStop | .interlock => none

/-- Collation states. -/
def collStateCode : CollState → Nat
  | .idle => 0 | .setStart => 1 | .inSet => 2 | .hunt => 3

/-- Feed hold, in the order of R5, NONE last. -/
def feedHoldCode : FeedHold → Nat
  | .line => 0 | .sheet => 1 | .accumulator => 2 | .records => 3 | .reserve => 4 | .queue => 5 | .none => 6

/-- Window states, in the order of R34. -/
def pieceStateCode : PieceState → Nat
  | .free => 0 | .held => 1 | .diverted => 2 | .missing => 3 | .delivered => 4 | .voided => 5

/-- Stages, in the order of R43. -/
def stageCode : Stage → Nat
  | .accumulating => 0 | .complete => 1 | .folding => 2 | .buffered => 3 | .onTrack _ => 4 | .inTransport => 5

/-- Divert points. -/
def divertPointCode : DivertPoint → Nat
  | .early => 0 | .late => 1 | .inPlace => 2

/-- Kinds of divert entry. -/
def divertKindCode : DivertKind → Nat
  | .matched => 0 | .stray => 1

/-- Monitors, in the order READ, ENVELOPE, EXIT, S1 to S6. -/
def monitorCode : MonitorId → Nat
  | .read => 0 | .envelope => 1 | .exit => 2 | .station n => 3 + n.val

/-- Trip causes, in the order of R55. -/
def tripCauseCode : TripCause → Nat
  | .unreadable => 0 | .markConflict => 1 | .wrapGap => 2 | .hunt => 3 | .envelopeMiss => 4
  | .insertFail => 5 | .windowNoRead => 6 | .windowMismatch => 7 | .insertMiss => 8
  | .insertDouble => 9 | .refillFail => 10

/-- A station's trip action as its table field codes it, "DISABLE or STOP" (R103). -/
def tripActionCode : TripAction → Nat
  | .disable => 0 | .stop => 1

/-- The action of a MONITOR_TRIP report, "STOP or DISABLE" (R55). -/
def tripReportCode : TripAction → Nat
  | .stop => 0 | .disable => 1

/-- Trip outcomes, in the order of R55. -/
def tripOutcomeCode : TripOutcome → Nat
  | .stopped => 0 | .alreadyStopped => 1 | .atRest => 2 | .disabled => 3

/-- Proving states, in the order of R57. -/
def provingCode : ProvingState → Nat
  | .none => 0 | .active => 1 | .passed => 2 | .failed => 3 | .abandoned => 4

/-- The outcome of a PROVING_DONE report, PASSED or FAILED (R59, R60). -/
def provingOutcomeCode : ProvingState → Nat
  | .failed => 1 | _ => 0

/-- Station states, in the order of R104. -/
def stationStateCode : StationState → Nat
  | .off => 0 | .refilling => 1 | .ready => 2 | .dropping => 3 | .empty => 4 | .tripped => 5

/-- Causes of a STATION_CHANGE, in the order of R110. -/
def stationCauseCode : StationCause → Nat
  | .host => 0 | .trip => 1 | .refillExhausted => 2 | .refillDone => 3 | .job => 4 | .resume => 5

/-- Pockets, in the order of R97. -/
def pocketCode : Pocket → Nat
  | .staged => 0 | .refilling => 1 | .empty => 2

/-- Zones, in the order FEED, FOLD, TRACK, SORT. -/
def zoneCode : Zone → Nat
  | .feed => 0 | .fold => 1 | .track => 2 | .sort => 3

/-- Levels, in the order DIRECT, AREA, MIXED. -/
def levelCode : Level → Nat
  | .direct => 0 | .area => 1 | .mixed => 2

/-- Causes of a close, in the order of R132. -/
def closeCauseCode : CloseCause → Nat
  | .count => 0 | .weight => 1 | .host => 2 | .sweep => 3 | .abort => 4 | .withdraw => 5

/-- States of a BIN_CHANGE, in the order of 11.6. -/
def binReportCode : BinReport → Nat
  | .open => 0 | .swap => 1 | .free => 2 | .full => 3 | .cleared => 4 | .ignored => 5

/-- Bins: B1 to B10 are 1 to 10, BR 11, the early divert bin 12, the late divert bin 13 (11.6). -/
def anyBinCode : AnyBin → Nat
  | .sort b => b.val + 1 | .early => 12 | .late => 13

/-- The sort bin that a code names; none for a code outside B1 to B10 and BR. -/
def binOfCode (b : Byte) : Option BinId :=
  if h : 1 ≤ b.toNat ∧ b.toNat ≤ 11 then some ⟨b.toNat - 1, by omega⟩ else none

/-- The station that a code 1 to 6 names. -/
def stationOfCode (b : Byte) : Option StationId :=
  if h : 1 ≤ b.toNat ∧ b.toNat ≤ 6 then some ⟨b.toNat - 1, by omega⟩ else none

/-- The zone that a code names. -/
def zoneOfCode (b : Byte) : Option (Fin 4) :=
  if h : b.toNat < 4 then some ⟨b.toNat, h⟩ else none

/-- The sensor that a number 1 to 4 names. -/
def sensorOfCode (b : Byte) : Option (Fin 4) :=
  if h : 1 ≤ b.toNat ∧ b.toNat ≤ 4 then some ⟨b.toNat - 1, by omega⟩ else none

/-- Bin states (R127). -/
def binStateCode : BinState → Nat
  | .free => 0 | .open _ => 1 | .swap => 2

/-- Lock modes, in the order of R179. -/
def lockModeCode : LockMode → Nat
  | .open => 0 | .keyed => 1 | .runLocked => 2 | .powerLocked => 3

/-- The lock mode that a code names (R180). -/
def lockModeOfCode (b : Byte) : Option LockMode :=
  match b.toNat with
  | 0 => some .open | 1 => some .keyed | 2 => some .runLocked | 3 => some .powerLocked | _ => none

/-- Lock groups, PLANT then POSTAL (R179). -/
def lockGroupCode : LockGroup → Nat
  | .plant => 0 | .postal => 1

/-- The lock group that a code names (R180). -/
def lockGroupOfCode (b : Byte) : Option LockGroup :=
  match b.toNat with
  | 0 => some .plant | 1 => some .postal | _ => none

/-- Runout targets (R154). -/
def runoutTargetCode : RunoutTarget → Nat
  | .none => 0 | .jobIdle => 1 | .sweep => 2

/-- Reset causes, in the order of R193. -/
def resetCauseCode : ResetCause → Nat
  | .powerOn => 0 | .resetLine => 1 | .restart => 2

/-- Reasons, in the order of R155; the code of INTERLOCK is not stated (log entry 1). -/
def reasonByte : Reason → Byte
  | .powerOn => 0 | .resetLine => 1 | .restart => 2 | .configure => 3 | .openJob => 4 | .host => 5
  | .key => 6 | .feederEmpty => 7 | .stationEmpty _ => 8 | .pauseDone => 9 | .purgeDone => 10
  | .provingPassed => 11 | .provingFailed => 12 | .runoutDone => 13 | .sweepDone => 14 | .abort => 15
  | .readMonitor => 16 | .envelopeMonitor => 17 | .exitMonitor => 18 | .stationMonitor _ => 19
  | .releaseTimeout => 20 | .moveTimeout => 21 | .foldTimeout => 22 | .indexTimeout => 23
  | .weighTimeout => 24 | .deliveryTimeout => 25 | .jam _ _ => 26 | .interlockOpen => 27
  | .interlockClosed => 28 | .recover => 29 | .interlock => Config.interlockReasonCode

/-- The detail of a reason, 2 bytes: a station, or a zone and a sensor (11.6). A station stands in the first byte, the second
being absent (DESIGN CHOICE, log entry 32). -/
def reasonDetail : Reason → List Byte
  | .stationEmpty n | .stationMonitor n => toBytes 1 (n.val + 1) ++ absentBytes 1
  | .jam z k => toBytes 1 (zoneCode z) ++ toBytes 1 (k.val + 1)
  | _ => absentBytes 2

/-- Causes of a LINK_ERROR, in the order of 11.6. -/
def linkErrorCode : LinkErrorCause → Nat
  | .length => 0 | .crc => 1 | .gap => 2 | .framing => 3 | .overrun => 4

/-- Causes of a JOB_ENDED, END then ABORT. -/
def jobEndCode : JobEndCause → Nat
  | .ended => 0 | .abort => 1

/-- Fold types, in the order of R63. -/
def foldTypeCode : FoldType → Nat
  | .flat => 0 | .single => 1 | .letter => 2 | .zig => 3

/-- The fold type that a code names. -/
def foldTypeOfCode : Nat → Option FoldType
  | 0 => some .flat | 1 => some .single | 2 => some .letter | 3 => some .zig | _ => none

/-- Marginal policies, in the order of R63. -/
def policyCode : MarginalPolicy → Nat
  | .accept => 0 | .divert => 1

/-- The policy that a code names. -/
def policyOfCode : Nat → Option MarginalPolicy
  | 0 => some .accept | 1 => some .divert | _ => none

/-- Match modes, SEQUENCE then LOOKUP (R158). -/
def matchModeCode : MatchMode → Nat
  | .sequence => 0 | .lookup => 1

/-- The link rate in bit/s (chapter 11), the number that Identify sends (DESIGN CHOICE, log entry 32). -/
def linkRateBits : LinkRate → Nat
  | .r115200 => 115200 | .r230400 => 230400 | .r460800 => 460800 | .r921600 => 921600

/-- Key positions, RUN then SETUP (R154). -/
def keyCode : KeyPosition → Nat
  | .run => 0 | .setup => 1

/-- The interlock input, CLOSED then OPEN (R154). -/
def interlockCode : InterlockInput → Nat
  | .closed => 0 | .opened => 1

/-! ### Instrument records (R195) -/

/-- R195: the check byte makes the sum of every byte after 0xA5, itself included, 0 modulo 256. -/
def checkSumOk (bs : List Byte) : Bool := (bs.foldl (· + ·) (0#8)) == 0

/-- An instrument record that passes is an event at its owning block (R195). -/
inductive InstrumentEvent where
  | read (tag : Byte) (mark : Option RawMark)
  | sheetEnd (tag : Byte)
  | scan (piece : Option (BitVec 24))
  | weight (w : BitVec 24)
  deriving DecidableEq, Repr

/-- R195, 11.6 Instrument records: the event of a record's bytes from its 0xA5 on, or none for a record that fails its
check, its type for the port, or an enumeration. -/
def parseInstrument (port : InstrumentPort) (bytes : List Byte) : Option InstrumentEvent :=
  match bytes with
  | 0xA5#8 :: rest =>
    if !checkSumOk rest then none
    else
      match port, rest with
      | .reader, [0x01#8, tag, status, j1, j0, p2, p1, p0, index, count, wrap, _] =>
        if status == 0 then
          some (.read tag (some { job := j1 ++ j0, piece := (p2 ++ p1 ++ p0 : BitVec 24), index, count, wrap }))
        else if status == 1 then some (.read tag none)
        else none
      | .reader, [0x02#8, tag, _] => some (.sheetEnd tag)
      | .scanner, [0x11#8, status, p2, p1, p0, _] =>
        if status == 0 then some (.scan (some (p2 ++ p1 ++ p0 : BitVec 24)))
        else if status == 1 then some (.scan none)
        else none
      | .scale, [0x21#8, w2, w1, w0, _] => some (.weight (w2 ++ w1 ++ w0 : BitVec 24))
      | _, _ => none
  | _ => none

/-- R195, 11.6: how many bytes a record of a type has, from 0xA5 to its check byte; none for a type its port does not carry. -/
def recordLength (port : InstrumentPort) (type : Byte) : Option Nat :=
  match port, type.toNat with
  | .reader, 0x01 => some 13
  | .reader, 0x02 => some 4
  | .scanner, 0x11 => some 7
  | .scale, 0x21 => some 6
  | _, _ => none

/-- R195: whether the status of a record has arrived and lies outside its values. -/
def statusWrong (port : InstrumentPort) (bytes : List Byte) : Bool :=
  match port, bytes with
  | .reader, _ :: type :: _ :: status :: _ => type == 0x01 && 1 < status.toNat
  | .scanner, _ :: _ :: status :: _ => 1 < status.toNat
  | _, _ => false

/-- What a port finds in the bytes of a record from its 0xA5 on (R195). -/
inductive RecordVerdict where
  | incomplete
  | faulty
  | event (e : InstrumentEvent)
  deriving DecidableEq, Repr

/-- R195: a record's verdict, made at the byte that decides it: its type and its status when they arrive (log entry 33), its
check at the last byte. -/
def recordVerdict (port : InstrumentPort) (bytes : List Byte) : RecordVerdict :=
  match bytes with
  | _ :: type :: _ =>
    match recordLength port type with
    | none => .faulty
    | some n =>
      if statusWrong port bytes then .faulty
      else if bytes.length < n then .incomplete
      else
        match parseInstrument port bytes with
        | some e => .event e
        | none => .faulty
  | _ => .incomplete

/-- R195: one byte at a port, which holds the bytes of the record it gathers, none while it looks for 0xA5. -/
def gatherRecordByte (port : InstrumentPort) (held : List Byte) (b : Byte) : List Byte × RecordVerdict :=
  let bytes := if held = [] ∧ b ≠ 0xA5 then [] else held ++ [b]
  match recordVerdict port bytes with
  | .incomplete => (bytes, .incomplete)
  | v => ([], v)

/-- R195: bytes at a port, one after another: the bytes it holds after the last, and what it found at each. -/
def gatherRecords (port : InstrumentPort) : List Byte → List Byte → List Byte × List RecordVerdict
  | held, [] => (held, [])
  | held, b :: rest =>
    let first := gatherRecordByte port held b
    let others := gatherRecords port first.1 rest
    (others.1, first.2 :: others.2)

/-- R2: the mark of a read, or none for a read that is taken as UNREADABLE. An index or count above 31 lies outside the
range as carried (chapter 1, mark fields) and is taken the same way (DEDUCED, log entry 8). -/
def markOfRaw (r : RawMark) : Option Mark :=
  if r.piece == 0 || r.index == 0 || r.count == 0 || 31 < r.index.toNat || 31 < r.count.toNat || 7 < r.wrap.toNat then none
  else some { job := r.job.toNat, piece := r.piece.toNat, index := r.index.toNat, count := r.count.toNat, wrap := r.wrap.toNat }

/-- R114, R195: the scale's signed weight clamped to 0 to 65,535 cg. -/
def clampWeight (w : BitVec 24) : Nat := min (w.toInt.toNat) 65535

/-! ### Piece records (11.6) -/

/-- A piece record as its 11 bytes. -/
def pieceRecordBytes (r : PieceRecord) : List Byte :=
  toBytes 3 r.piece ++ toBytes 1 r.sheets ++ toBytes 1 r.insertClass.val ++ toBytes 1 r.plan.val ++
    toBytes 1 ((if r.pull then 1 else 0) + (if r.reprint then 2 else 0)) ++ optBytes 4 r.key

/-- R26, R28 check 2: the record of 11 bytes, or none when a field is out of its range or a flag value undefined. -/
def parsePieceRecord (b : List Byte) : Option PieceRecord :=
  let piece := fieldAt b 0 3
  let sheets := fieldAt b 3 1
  let cls := fieldAt b 4 1
  let plan := fieldAt b 5 1
  let flags := fieldAt b 6 1
  let key := fieldAt b 7 4
  if hc : cls < 16 then
    if hp : plan < 8 then
      if 1 ≤ piece ∧ 1 ≤ sheets ∧ sheets ≤ 24 ∧ flags < 4 ∧ (key ≤ 99999 ∨ key = 0xFFFFFFFF) then
        some { piece, sheets, insertClass := ⟨cls, hc⟩, plan := ⟨plan, hp⟩
               key := if key = 0xFFFFFFFF then none else some key
               pull := flags % 2 = 1, reprint := 2 ≤ flags }
      else none
    else none
  else none

/-- The records of a LoadPieces body, each of 11 bytes, at most `n` of them. -/
def splitRecords : (n : Nat) → List Byte → List (List Byte)
  | 0, _ => []
  | n + 1, b => if b.isEmpty then [] else b.take 11 :: splitRecords n (b.drop 11)

/-! ### The line configuration (R176, 11.6) -/

/-- How a Configure field is read: its width in the body, its range, its default if it has one, and whether a value
outside the range is clamped (R177: the scale value and the compare mask are refused). -/
structure ConfigField where
  width : Nat
  lo : Nat
  hi : Nat
  default : Option Nat
  clamp : Bool
  deriving DecidableEq, Repr

/-- R176: the fields in the order of the table, with the widths of 11.6 (85 bytes). -/
def configFields : List ConfigField := [
  ⟨2, 1400, 4320, none, true⟩, ⟨2, 1000, 3200, none, true⟩,
  ⟨1, 40, 250, none, true⟩, ⟨2, 50, 300, none, true⟩,
  ⟨2, 900, 2500, none, true⟩, ⟨2, 0, 200, none, true⟩,
  ⟨2, 0, 2500, none, true⟩, ⟨2, 0, 2500, none, true⟩,
  ⟨2, 0, 5000, none, true⟩, ⟨2, 500, 20000, none, true⟩,
  ⟨1, 0, 1, some 0, false⟩,
  ⟨2, 0, 2000, some 100, true⟩, ⟨2, 0, 200, some 20, true⟩,
  ⟨1, 0, 31, some 31, false⟩,
  ⟨1, 1, 64, some 8, true⟩, ⟨1, 1, 16, some 4, true⟩, ⟨1, 0, 127, some 32, true⟩, ⟨1, 0, 15, some 3, true⟩,
  ⟨2, 100, 10000, some 2000, true⟩,
  ⟨2, 100, 5000, some 1000, true⟩, ⟨2, 100, 5000, some 1500, true⟩,
  ⟨2, 200, 10000, some 3000, true⟩, ⟨2, 200, 5000, some 1000, true⟩,
  ⟨2, 100, 3000, some 800, true⟩, ⟨2, 100, 3000, some 1000, true⟩,
  ⟨2, 50, 2000, some 300, true⟩, ⟨2, 100, 5000, some 800, true⟩, ⟨2, 200, 10000, some 2000, true⟩,
  ⟨2, 50, 10000, some 500, true⟩, ⟨2, 50, 10000, some 500, true⟩,
  ⟨2, 50, 10000, some 500, true⟩, ⟨2, 50, 10000, some 500, true⟩,
  ⟨1, 1, 15, some 4, true⟩, ⟨2, 1, 255, some 50, true⟩, ⟨2, 2, 255, some 16, true⟩,
  ⟨1, 1, 15, some 4, true⟩, ⟨2, 1, 255, some 50, true⟩, ⟨2, 2, 255, some 16, true⟩,
  ⟨1, 1, 15, some 4, true⟩, ⟨2, 1, 255, some 50, true⟩, ⟨2, 2, 255, some 16, true⟩,
  ⟨2, 0, 255, some 10, true⟩, ⟨1, 1, 15, some 3, true⟩,
  ⟨2, 2, 999, some 300, true⟩, ⟨4, 10000, 3000000, some 1500000, true⟩,
  ⟨2, 1, 250, some 50, true⟩, ⟨2, 1, 250, some 50, true⟩]

/-- A value moved to the nearer end of a range. -/
def clampTo (lo hi v : Nat) : Nat := max lo (min hi v)

/-- R176, R177: one field's value and whether it was clamped; none when the field is refused. -/
def readConfigField (f : ConfigField) (v : Nat) : Option (Nat × Bool) :=
  if v = 256 ^ f.width - 1 then f.default.map (·, false)
  else if f.lo ≤ v ∧ v ≤ f.hi then some (v, false)
  else if f.clamp then some (clampTo f.lo f.hi v, true)
  else none

/-- The values of a Configure body's fields, and whether any was clamped. -/
def readConfigFields : List ConfigField → List Byte → Option (List Nat × Bool)
  | [], _ => some ([], false)
  | f :: fs, b =>
    match readConfigField f (ofBytes (b.take f.width)), readConfigFields fs (b.drop f.width) with
    | some (v, c), some (vs, cs) => some (v :: vs, c || cs)
    | _, _ => none

/-- The configuration whose fields have these values, in the order of R176. -/
def configOfValues (vs : List Nat) : LineConfig :=
  let v := fun i => vs.getD i 0
  { sheetLength := v 0, sheetWidth := v 1, grammage := v 2, sheetCaliper := v 3, envelopeDepth := v 4
    clearance := v 5, windowTop := v 6, windowBottom := v 7, envelopeWeight := v 8, fillMax := v 9
    scaleEnabled := v 10 = 0, weightBase := v 11, weightPerSheet := v 12, maskDefault := BitVec.ofNat 5 (v 13)
    huntCount := v 14, skipDefault := v 15, queueLow := v 16, purgeCount := v 17, feedTime := v 18
    releaseTime := v 19, foldTime := v 20, moveTime := v 21, indexTime := v 22, insertTime := v 23
    envelopeRefillTime := v 24, scanTime := v 25, weighTime := v 26, deliveryTime := v 27
    jamFeed := v 28, jamFold := v 29, jamTrack := v 30, jamSort := v 31
    readMon := ⟨v 32, v 33, v 34⟩, envelopeMon := ⟨v 35, v 36, v 37⟩, exitMon := ⟨v 38, v 39, v 40⟩
    provingP := v 41, provingM := v 42, trayCount := v 43, trayWeight := v 44
    earlyCapacity := v 45, lateCapacity := v 46 }

/-- The values of a configuration's fields, in the order of R176. -/
def configValues (c : LineConfig) : List Nat :=
  [c.sheetLength, c.sheetWidth, c.grammage, c.sheetCaliper, c.envelopeDepth, c.clearance, c.windowTop,
   c.windowBottom, c.envelopeWeight, c.fillMax, if c.scaleEnabled then 0 else 1, c.weightBase,
   c.weightPerSheet, c.maskDefault.toNat, c.huntCount, c.skipDefault, c.queueLow, c.purgeCount, c.feedTime,
   c.releaseTime, c.foldTime, c.moveTime, c.indexTime, c.insertTime, c.envelopeRefillTime, c.scanTime,
   c.weighTime, c.deliveryTime, c.jamFeed, c.jamFold, c.jamTrack, c.jamSort,
   c.readMon.u, c.readMon.d, c.readMon.t, c.envelopeMon.u, c.envelopeMon.d, c.envelopeMon.t,
   c.exitMon.u, c.exitMon.d, c.exitMon.t, c.provingP, c.provingM, c.trayCount, c.trayWeight,
   c.earlyCapacity, c.lateCapacity]

/-- Field values in the widths of their fields. -/
def writeConfigFields : List ConfigField → List Nat → List Byte
  | f :: fs, v :: vs => toBytes f.width v ++ writeConfigFields fs vs
  | _, _ => []

/-- The line configuration as in the Configure body (11.6). A configuration not held has all fields zero, which R182 says of
ReadTable; a refused Configure's or WriteTable's reply returns it the same way (DESIGN CHOICE, log entry 32). -/
def configBytes : Option LineConfig → List Byte
  | none => List.replicate 85 0
  | some c => writeConfigFields configFields (configValues c)

/-- The configuration of a Configure body and whether a field was clamped; none when a field is refused (R176, R177).
The relations are tested by `configure`. -/
def parseConfig (b : List Byte) : Option (LineConfig × Bool) :=
  (readConfigFields configFields b).map fun p => (configOfValues p.1, p.2)

/-! ### Table entries (11.6) -/

/-- Whether a value lies outside a range, so that the write is answered ADJUSTED. -/
def outside (lo hi v : Nat) : Bool := v < lo || hi < v

/-- R103: a station record as its 15 bytes. -/
def stationBytes (r : StationRecord) : List Byte :=
  boolByte r.enabled ++ toBytes 2 r.weight ++ toBytes 2 r.caliper ++ toBytes 2 r.dropTimeout ++
    toBytes 2 r.refillTimeout ++ toBytes 1 (tripActionCode r.trip) ++ toBytes 1 r.mon.u ++
    toBytes 2 r.mon.d ++ toBytes 2 r.mon.t

/-- R103: the station record of an entry and whether a field was clamped; none for a trip action outside its two
values, or an enabled flag other than set and clear (DEDUCED, log entry 11). -/
def parseStation (b : List Byte) : Option (StationRecord × Bool) :=
  let en := fieldAt b 0 1
  let w := fieldAt b 1 2
  let cal := fieldAt b 3 2
  let dt := fieldAt b 5 2
  let rt := fieldAt b 7 2
  let act := fieldAt b 9 1
  let u := fieldAt b 10 1
  let d := fieldAt b 11 2
  let t := fieldAt b 13 2
  if 1 < en ∨ 1 < act then none
  else
    some ({ enabled := en = 1, weight := clampTo 0 5000 w, caliper := clampTo 0 5000 cal
            dropTimeout := clampTo 50 2000 dt, refillTimeout := clampTo 50 2000 rt
            trip := if act = 0 then .disable else .stop
            mon := ⟨clampTo 1 15 u, clampTo 1 255 d, clampTo 2 255 t⟩ },
          outside 0 5000 w || outside 0 5000 cal || outside 50 2000 dt || outside 50 2000 rt ||
            outside 1 15 u || outside 1 255 d || outside 2 255 t)

/-- R63: the greatest folder capacity of a fold type. -/
def capacityLimit : FoldType → Nat
  | .flat => 24 | .single => 12 | .letter => 8 | .zig => 8

/-- R63: a fold plan entry as its 11 bytes. An unset entry has its fields zero, which R182 says of ReadTable; a refused
WriteTable's reply returns it the same way (DESIGN CHOICE, log entry 32). -/
def planBytes : Option FoldPlan → List Byte
  | none => List.replicate 11 0
  | some p =>
    toBytes 1 (foldTypeCode p.type) ++ toBytes 2 p.offset ++ toBytes 2 p.block ++ toBytes 2 p.nest ++
      toBytes 2 p.panelMin ++ toBytes 1 p.capacity ++ toBytes 1 (policyCode p.policy)

/-- R63: the fold plan of an entry for sheet length `length`, and whether a field was clamped; none for a type or policy
outside its values, or a + b above the sheet length, tested on the clamped values. -/
def parsePlan (length : Nat) (e : List Byte) : Option (FoldPlan × Bool) :=
  let a := fieldAt e 1 2
  let b := fieldAt e 3 2
  let d := fieldAt e 5 2
  let pm := fieldAt e 7 2
  let cap := fieldAt e 9 1
  match foldTypeOfCode (fieldAt e 0 1), policyOfCode (fieldAt e 10 1) with
  | some type, some policy =>
    let block := clampTo 50 1000 b
    if a + block ≤ length then
      some ({ type, offset := a, block, nest := clampTo 0 100 d, panelMin := clampTo 200 1000 pm
              capacity := clampTo 1 (capacityLimit type) cap, policy },
            outside 50 1000 b || outside 0 100 d || outside 200 1000 pm || outside 1 (capacityLimit type) cap)
    else none
  | _, _ => none

/-- R124: a sort scheme entry as its 8 bytes; an invalid entry has its digits and group zero. -/
def schemeBytes : Option SchemeEntry → List Byte
  | none => List.replicate 8 0
  | some e => [1] ++ toBytes 1 e.len ++ e.chars ++ toBytes 1 e.group

/-- R124: whether a character is a digit 0 to 9. -/
def isDigit (b : Byte) : Bool := 0x30 ≤ b.toNat && b.toNat ≤ 0x39

/-- The digit string of a scheme entry. -/
def schemeDigits (e : SchemeEntry) : List Byte := e.chars.take e.len

/-- An entry as the table stores it: the digit bytes beyond the prefix are no part of the entry and stand as zero (log
entry 25). -/
def SchemeEntry.stored (e : SchemeEntry) : SchemeEntry :=
  { e with chars := schemeDigits e ++ List.replicate (5 - e.len) 0 }

/-- R124: the entry written, `some none` for one made invalid; none when the length, a character or the group is
refused, or the valid flag is neither set nor clear (DEDUCED, log entry 11). -/
def parseScheme (b : List Byte) : Option (Option SchemeEntry) :=
  let valid := fieldAt b 0 1
  let len := fieldAt b 1 1
  let chars := (b.drop 2).take 5
  let group := fieldAt b 7 1
  if valid = 0 then some none
  else if valid = 1 ∧ 1 ≤ len ∧ len ≤ 5 ∧ (chars.take len).all isDigit ∧ group ≤ 254 then
    some (some (SchemeEntry.stored { len, chars, group }))
  else none

/-- R141: the weight step table as its 17 bytes. An unset table reads a step count of 1 with a bound of 0, in a refused WriteTable's
reply too (DESIGN CHOICE, log entry 32); places beyond the step count hold no bound and are coded absent (log entry 12). -/
def stepsBytes : Option (List Nat) → List Byte
  | none => [1] ++ toBytes 2 0 ++ absentBytes 14
  | some bs => toBytes 1 bs.length ++ bs.flatMap (toBytes 2) ++ absentBytes (2 * (8 - bs.length))

/-- Whether each number is greater than the one before it. -/
def strictlyRising : List Nat → Bool
  | a :: b :: rest => a < b && strictlyRising (b :: rest)
  | _ => true

/-- `n` two-byte fields of a body. -/
def fields2 : (n : Nat) → List Byte → List Nat
  | 0, _ => []
  | n + 1, b => ofBytes (b.take 2) :: fields2 n (b.drop 2)

/-- R141: the bounds written and whether one was clamped; none when refused. -/
def parseSteps (b : List Byte) : Option (List Nat × Bool) :=
  let m := fieldAt b 0 1
  let raw := fields2 m (b.drop 1)
  let bs := raw.map (clampTo 1 65535)
  if 1 ≤ m ∧ m ≤ 8 ∧ strictlyRising bs then some (bs, raw.any (outside 1 65535)) else none

/-- The last step bound (R141). -/
def lastBound (steps : Option (List Nat)) : Option Nat := steps.bind List.getLast?

/-- R142: the lowest-numbered step whose bound is at or above a weight. -/
def stepOf (steps : Option (List Nat)) (weight : Nat) : Option Nat :=
  steps.bind fun bs => bs.findIdx? (fun b => weight ≤ b)

/-- The eight rates of one level (R143). -/
def ratesBytes (r : Vector Nat 8) : List Byte := r.toList.flatMap (toBytes 2)

/-- R143: the eight rates of an entry. -/
def parseRates (b : List Byte) : Vector Nat 8 :=
  #v[fieldAt b 0 2, fieldAt b 2 2, fieldAt b 4 2, fieldAt b 6 2, fieldAt b 8 2, fieldAt b 10 2, fieldAt b 12 2, fieldAt b 14 2]

/-- The range filter as in the SetRangeFilter body (11.6). -/
def filterBytes (f : RangeFilter) : List Byte :=
  [if f.sense = .inside then 0 else 1] ++
    f.ranges.toList.flatMap fun r => boolByte r.enabled ++ toBytes 3 r.low ++ toBytes 3 r.high

/-- One range of a SetRangeFilter body; none when it is refused (R25). -/
def parseRange (b : List Byte) : Option PieceRange :=
  let en := fieldAt b 0 1
  let low := fieldAt b 1 3
  let high := fieldAt b 4 3
  if en ≤ 1 ∧ 1 ≤ low ∧ low ≤ high then some ⟨en = 1, low, high⟩ else none

/-- R25: the filter of a full body; none when the sense or a range is refused. -/
def parseFilter (b : List Byte) : Option RangeFilter :=
  match parseRange (b.drop 1), parseRange (b.drop 8), parseRange (b.drop 15), parseRange (b.drop 22) with
  | some r0, some r1, some r2, some r3 =>
    match fieldAt b 0 1 with
    | 0 => some ⟨.inside, #v[r0, r1, r2, r3]⟩
    | 1 => some ⟨.outside, #v[r0, r1, r2, r3]⟩
    | _ => none
  | _, _, _, _ => none

/-- The job identity as in the OpenJob body (11.6). -/
def jobBytes : Option Job → List Byte
  | none => toBytes 2 0 ++ toBytes 3 0 ++ absentBytes 3
  | some j => toBytes 2 j.code ++ toBytes 3 j.first ++ toBytes 1 (matchModeCode j.mode) ++
      toBytes 1 j.mask.toNat ++ toBytes 1 j.skip

/-- R158 check 3: the identity of an OpenJob body, with the configuration's compare mask and skip limit in place of the
default markers; none when a field is outside its range or values. -/
def parseJob (c : LineConfig) (b : List Byte) : Option Job :=
  let code := fieldAt b 0 2
  let first := fieldAt b 2 3
  let mode := fieldAt b 5 1
  let mask := fieldAt b 6 1
  let skip := fieldAt b 7 1
  if 1 ≤ code ∧ 1 ≤ first ∧ mode ≤ 1 ∧ (mask ≤ 31 ∨ mask = 255) ∧ ((1 ≤ skip ∧ skip ≤ 16) ∨ skip = 255) then
    some { code, first, mode := if mode = 0 then .sequence else .lookup
           mask := if mask = 255 then c.maskDefault else BitVec.ofNat 5 mask
           skip := if skip = 255 then c.skipDefault else skip }
  else none

/-! ### Report, divert and manifest records (11.6) -/

/-- The kind code of a report. -/
def reportKind : Report → Nat
  | .pieceDelivered .. => 0 | .pieceDiverted .. => 1 | .pieceMissing .. => 2 | .sheetGap .. => 3
  | .queueLow .. => 4 | .queueStarved .. => 5 | .stateChange .. => 6 | .monitorTrip .. => 7
  | .stationChange .. => 8 | .binChange .. => 9 | .trayClosed .. => 10 | .exitBlocked .. => 11
  | .sortBlocked .. => 12 | .linkError .. => 13 | .provingDone .. => 14
  | .jobEnded1 .. => 15 | .jobEnded2 .. => 15 | .jobEnded3 .. => 15

/-- An optional byte. -/
def optByte : Option Byte → List Byte
  | none => absentBytes 1
  | some b => [b]

/-- A last accepted mark: piece 3 and index 1. -/
def markBytes : Option (Nat × Nat) → List Byte
  | none => toBytes 3 0 ++ absentBytes 1
  | some (p, i) => toBytes 3 p ++ toBytes 1 i

/-- The fields of a report's body (11.6). The step and postage weight of a TRAY_CLOSED with another cause than WITHDRAW are sent as
absent (R146; DESIGN CHOICE, log entry 32). -/
def reportFields : Report → List Byte
  | .pieceDelivered p t b w st ma di un =>
    pieceBytes p ++ optBytes 2 t ++ optBytes 1 (b.map (·.val + 1)) ++ toBytes 2 w ++ optBytes 1 st ++
      toBytes 1 ((if ma then 1 else 0) + (if di then 2 else 0) + (if un then 4 else 0))
  | .pieceDiverted n k p r pt sh =>
    toBytes 2 n ++ toBytes 1 (divertKindCode k) ++ pieceBytes p ++ toBytes 4 r.toNat ++
      toBytes 1 (divertPointCode pt) ++ toBytes 1 sh
  | .pieceMissing p c => toBytes 3 p ++ toBytes 3 c
  | .sheetGap l m p i => toBytes 1 l ++ markBytes m ++ toBytes 3 p ++ toBytes 1 i
  | .queueLow c b => toBytes 1 c ++ toBytes 3 b
  | .queueStarved b f => toBytes 3 b ++ toBytes 1 f
  | .stateChange n o r => toBytes 1 (lineStateCode n) ++ toBytes 1 (lineStateCode o) ++ [reasonByte r] ++ reasonDetail r
  | .monitorTrip m c l p a o pc =>
    toBytes 1 (monitorCode m) ++ toBytes 1 (tripCauseCode c) ++ toBytes 2 l ++ toBytes 1 p.u ++ toBytes 2 p.d ++
      toBytes 2 p.t ++ toBytes 1 (tripReportCode a) ++ toBytes 1 (tripOutcomeCode o) ++ pieceBytes pc
  | .stationChange n b a c =>
    toBytes 1 (n.val + 1) ++ toBytes 1 (stationStateCode b) ++ toBytes 1 (stationStateCode a) ++
      toBytes 1 (stationCauseCode c)
  | .binChange b st t g c cap ca =>
    toBytes 1 (anyBinCode b) ++ toBytes 1 (binReportCode st) ++ optBytes 2 t ++ optBytes 1 g ++ optBytes 2 c ++
      optBytes 1 cap ++ optBytes 1 (ca.map closeCauseCode)
  | .trayClosed t b g c l p ca st w =>
    toBytes 2 t ++ toBytes 1 (b.val + 1) ++ toBytes 1 g ++ toBytes 2 c ++ toBytes 1 (levelCode l) ++ toBytes 4 p ++
      toBytes 1 (closeCauseCode ca) ++ optBytes 1 st ++ optBytes 2 w
  | .exitBlocked sl t => optBytes 1 (sl.map Fin.val) ++ boolByte t
  | .sortBlocked p g b => pieceBytes p ++ toBytes 1 g ++ toBytes 1 (b.val + 1)
  | .linkError c t ty => toBytes 1 (linkErrorCode c) ++ optByte t ++ optByte ty
  | .provingDone o g f p m d =>
    toBytes 1 (provingOutcomeCode o) ++ toBytes 1 g ++ toBytes 1 f ++ toBytes 2 p ++ toBytes 1 m ++ optBytes 2 d
  | .jobEnded1 j c d t st gd =>
    [1] ++ toBytes 2 j ++ toBytes 1 (jobEndCode c) ++ toBytes 1 d ++ toBytes 2 t ++ toBytes 4 st ++ toBytes 4 gd
  | .jobEnded2 j f d m => [2] ++ toBytes 2 j ++ toBytes 4 f ++ toBytes 4 d ++ toBytes 4 m
  | .jobEnded3 j s m v => [3] ++ toBytes 2 j ++ toBytes 4 s ++ toBytes 4 m ++ toBytes 4 v

/-- A report's body of 18 bytes, those after the last field 0. -/
def reportBody (r : Report) : List Byte :=
  (reportFields r ++ List.replicate 18 0).take 18

/-- R189: whether two reports have the same kind and an identical body. -/
def sameReport (a b : Report) : Bool := reportKind a == reportKind b && reportBody a == reportBody b

/-- A report entry as its 24 bytes. -/
def reportBytes (e : ReportEntry) : List Byte :=
  toBytes 1 (reportKind e.report) ++ toBytes 1 e.repeats ++ toBytes 4 e.time.toNat ++ reportBody e.report

/-- A divert entry as its 16 bytes. -/
def divertBytes (e : DivertEntry) : List Byte :=
  toBytes 2 e.number ++ toBytes 1 (divertKindCode e.kind) ++ pieceBytes e.piece ++ toBytes 4 e.reasons.toNat ++
    toBytes 1 (divertPointCode e.point) ++ toBytes 1 e.sheets ++ toBytes 4 e.time.toNat

/-- A manifest entry as its 51 bytes. -/
def manifestBytes (e : ManifestEntry) : List Byte :=
  toBytes 2 e.job ++ toBytes 2 e.tray ++ toBytes 1 (e.bin.val + 1) ++ toBytes 1 e.group ++ toBytes 2 e.count ++
    toBytes 4 e.weight ++ e.steps.toList.flatMap (toBytes 2) ++ toBytes 3 e.first ++ toBytes 3 e.last ++
    toBytes 4 e.openTime.toNat ++ toBytes 4 e.closeTime.toNat ++ toBytes 1 (closeCauseCode e.cause) ++
    toBytes 1 (levelCode e.level) ++ toBytes 4 e.postage ++ toBytes 2 e.revision.toNat ++ toBytes 1 e.withdrawn

/-! ### Type codes and body lengths (11.6) -/

/-- Whether a TYPE names a request. -/
def isRequestType (type : Byte) : Bool :=
  [0x01, 0x02, 0x03, 0x10, 0x11, 0x12, 0x13, 0x14, 0x20, 0x21, 0x22, 0x23, 0x24, 0x25, 0x26, 0x27, 0x28,
   0x30, 0x31, 0x32, 0x33, 0x34, 0x35, 0x36, 0x3F].contains type.toNat

/-- R188: whether a body length is one allowed for a TYPE; for WriteTable, at least 2 bytes. -/
def bodyLengthOk (type : Byte) (n : Nat) : Bool :=
  match type.toNat with
  | 0x01 => n == 0
  | 0x02 => n == 1
  | 0x03 => n == 1
  | 0x10 => n == 0 || n == 85
  | 0x11 => 2 ≤ n
  | 0x12 => n == 2
  | 0x13 => n == 2
  | 0x14 => n == 0 || n == 29
  | 0x20 => n == 8
  | 0x21 => n % 11 == 0 && 11 ≤ n && n ≤ 220
  | 0x22 | 0x23 | 0x24 | 0x25 | 0x26 | 0x27 | 0x28 => n == 0
  | 0x30 => n == 2
  | 0x31 => n == 1
  | 0x32 => n == 3
  | 0x33 => n == 2
  | 0x34 => n == 2
  | 0x35 => n == 2
  | 0x36 => n == 3
  | 0x3F => n == 0
  | _ => false

end Sys2Proof.Machine
end

