-- ==== Sys2Proof/Machine/State.lean ====
section
/-! DEFINITION. The state of the ZG-4410, block by block as 00_scope lists the blocks, its reset values, and the reasons
a step can stop. -/

namespace Sys2Proof.Machine

/-- The state: the eleven blocks' state (the Fold Planner holds none, 4.0), the instrument ports, the line time, and the queue of commands
that wait, first in, first out. -/
structure State where
  plant : Plant
  postal : Postal
  reg : Register
  coll : Collation
  mon : MonitorBank
  sets : SetHandler
  track : Track
  presort : Presort
  postage : Postage
  line : LineControl
  link : Link
  ports : Ports
  time : LineTime
  pending : List Instr
  deriving DecidableEq, Repr

/-- A fault of the machine. There is none: the handbook gives every command, event and timeout its effect in every
state, so no meaning raises a fault, and no constructor stands here. -/
inductive Fault where
  deriving DecidableEq, Repr

/-- A refusal of the model. -/
inductive Refusal where
  /-- Raised by `exec` for a command that has no meaning in this model; safe. Every row of the table has its meaning,
  so no arm of `exec` raises it. -/
  | notModelled (mnemonic : String)
  deriving DecidableEq, Repr

/-! ### Power-on contents, block by block -/

/-- R103: a station record after power-on. -/
def StationRecord.powerOn : StationRecord :=
  { enabled := false, weight := 0, caliper := 0, dropTimeout := 500, refillTimeout := 1000, trip := .stop
    mon := { u := 4, d := 50, t := 16 } }

/-- R183: the PLANT group after power-on. -/
def Plant.powerOn : Plant :=
  { config := none, stations := .replicate 6 .powerOn, classes := .replicate 16 0, plans := .replicate 8 none
    mode := .open, revision := 0 }

/-- R183: the POSTAL group after power-on. -/
def Postal.powerOn : Postal :=
  { scheme := .replicate 256 none, levels := .replicate 255 .area, steps := none
    rates := .replicate 3 (.replicate 8 0), minDirect := 1, minArea := 1, mode := .open, revision := 0 }

/-- R46: the counters, all 0. -/
def Counters.zero : Counters := ⟨0, 0, 0, 0, 0, 0, 0, 0⟩

/-- R24: the range filter after a reset. -/
def RangeFilter.reset : RangeFilter := { sense := .inside, ranges := .replicate 4 ⟨false, 1, 1⟩ }

/-- R29, R30, R34, R37, R44, R46: the Piece Register after a reset. -/
def Register.reset : Register :=
  { queue := [], base := 0, window := [], diverts := [], nextDivert := 1, pool := .replicate 16 none
    filter := .reset, job := none, counters := .zero, lowArmed := false }

/-- R4: the Collation Unit after a reset, at job end and at abort. -/
def Collation.reset : Collation :=
  { state := .idle, current := none, expectedIndex := 1, transit := .none, closedTag := none, lastMark := none
    expectedWrap := none, huntCount := 0, starvationArmed := true, feedHold := .line }

/-- R48: a monitor at level 0 and good count 0. -/
def MonLevel.zero : MonLevel := ⟨0, 0⟩

/-- R48, R57: the Monitor Bank after a reset. -/
def MonitorBank.reset : MonitorBank :=
  { read := .zero, envelope := .zero, exit := .zero, stations := .replicate 6 .zero, proving := .none
    provingGood := 0, provingFault := 0 }

/-- R82: the Set Handler after a reset. -/
def SetHandler.reset : SetHandler :=
  { gate := .closed none, accumulator := none, release := .none, earlyCount := 0, earlyArmed := true
    folder := .idle, folderSet := none, plate1 := none, plate2 := none, buffer := none }

/-- R104: a station after a reset. -/
def Station.reset : Station :=
  { state := .off, seq := .none, pendingDisable := false, drop := none, announce := false }

/-- R97: a jam zone after a reset, with its sensors' inputs read. -/
def JamZone.reset (sensors : Vector Bool 4) : JamZone :=
  { jammed := none, motion := false
    sensors := #v[⟨sensors[0], none⟩, ⟨sensors[1], none⟩, ⟨sensors[2], none⟩, ⟨sensors[3], none⟩] }

/-- R97, R111: the Track Controller after a reset. -/
def Track.reset (inp : Inputs) : Track :=
  { carriers := .replicate 12 none, index := none, purgePitches := 0, stations := .replicate 6 .reset
    head := { pocket := .empty, insert := none, refill := none }, scan := none, weigh := none
    lateCount := 0, lateArmed := true, transport := none, delivery := none
    exitClear := inp.exitClear, exitArmed := true
    zones := #v[.reset inp.sensors[0], .reset inp.sensors[1], .reset inp.sensors[2], .reset inp.sensors[3]]
    lateGate := .divert, assignDue := false, sortReported := false }

/-- R127: the Presort Unit after a reset. -/
def Presort.reset : Presort :=
  { bins := .replicate 11 ⟨.free, none, 0⟩, nextTray := none, sweepPosition := none }

/-- R151: the totals of one level, all 0. -/
def LevelTotals.zero : LevelTotals := ⟨0, 0, 0⟩

/-- R148, R150, R151: the Postage and Manifest Unit after a reset. -/
def Postage.reset : Postage :=
  { manifest := [], retained := [], direct := .zero, area := .zero, mixed := .zero, closedPieces := 0
    withdrawnAfter := 0 }

/-- R154: Line Control after a reset. -/
def LineControl.reset (inp : Inputs) : LineControl :=
  { state := .standby, returnState := none, origin := none, stopReason := none, runoutTarget := .none
    pendingPause := ⟨false, false, false⟩, purgeHeldDone := false, key := inp.key, interlock := inp.interlock }

/-- R155: the reason that names a reset. -/
def ResetCause.reason : ResetCause → Reason
  | .powerOn => .powerOn
  | .resetLine => .resetLine
  | .restart => .restart

/-- R185, R189, R190, R155: the Message Link after a reset, its queue holding the one STATE_CHANGE that gives STANDBY
with STANDBY as the state before, at line time 0. -/
def Link.reset (cause : ResetCause) (inp : Inputs) : Link :=
  { receive := .hunting, held := none
    reports := [{ report := .stateChange .standby .standby cause.reason, repeats := 1, time := 0 }]
    overflow := false, rate := inp.rate, resetCause := cause }

/-- R195: every port looks for 0xA5 (DESIGN CHOICE, log entry 33). -/
def Ports.reset : Ports := ⟨[], [], []⟩

/-- Every block after a reset, with the lock groups that the reset leaves. -/
def State.afterReset (cause : ResetCause) (inp : Inputs) (plant : Plant) (postal : Postal) (pending : List Instr) : State :=
  { plant, postal, reg := .reset, coll := .reset, mon := .reset, sets := .reset, track := .reset inp
    presort := .reset, postage := .reset, line := .reset inp, link := .reset cause inp, ports := .reset, time := 0, pending }

/-- DESIGN CHOICE (log entry 2): the input levels that the power-on of `State.reset` reads. -/
def inputsAtReset : Inputs :=
  { rate := .r115200, key := .run, interlock := .closed, exitClear := true
    sensors := .replicate 4 (.replicate 4 false) }

/-- The machine right after power-on (R183), with no command waiting. -/
def State.reset : State := .afterReset .powerOn inputsAtReset .powerOn .powerOn []

end Sys2Proof.Machine
end

