-- ==== Sys2Proof/Machine/Ops.lean ====
section
/-! DEFINITION. The shared operations over the state: reports, the set record pool, the line state and the stops, and the
cut-off of outstanding operations. -/

namespace Sys2Proof.Machine

/-! ### Line state -/

/-- Chapter 9: the line states with a job open. -/
def LineState.jobOpen : LineState → Bool
  | .standby | .ready => false
  | _ => true

/-- R98: the motion states. -/
def LineState.motion : LineState → Bool
  | .purge | .proving | .running | .runout => true
  | _ => false

/-- PROVING, RUNNING or RUNOUT: the states in which the Set Handler starts operations (R83, R84, R89, R90). -/
def LineState.working : LineState → Bool
  | .proving | .running | .runout => true
  | _ => false

/-- Whether a job is open. -/
def State.jobOpen (s : State) : Bool := s.line.state.jobOpen

/-- Whether the line is in a motion state. -/
def State.motion (s : State) : Bool := s.line.state.motion

/-- Whether the line is in PROVING, RUNNING or RUNOUT. -/
def State.working (s : State) : Bool := s.line.state.working

/-- A configuration with every field 0, read where none is held; a job is open only with a configuration held (R158). -/
def emptyConfig : LineConfig := configOfValues []

/-- The line configuration in force. -/
def State.cfg (s : State) : LineConfig := s.plant.config.getD emptyConfig

/-- A timer that starts now. -/
def State.timer (s : State) (limit : Nat) : Timer := { start := s.time, limit }

/-! ### Reports (R189 to R191) -/

/-- R189, R190: the queue and the overflow flag after a report is queued. -/
def pushReport (queue : List ReportEntry) (overflow : Bool) (now : LineTime) (r : Report) : List ReportEntry × Bool :=
  match queue.getLast? with
  | some e =>
    if sameReport e.report r then (queue.dropLast ++ [{ e with repeats := min (e.repeats + 1) 255 }], overflow)
    else if queue.length < Config.reportCapacity then (queue ++ [{ report := r, repeats := 1, time := now }], overflow)
    else (queue, true)
  | none => ([{ report := r, repeats := 1, time := now }], overflow)

/-- A block queues a report with the Message Link (R189, R190). -/
def queueReport (r : Report) (s : State) : State :=
  { s with link.reports := (pushReport s.link.reports s.link.overflow s.time r).1
           link.overflow := (pushReport s.link.reports s.link.overflow s.time r).2 }

/-- Reports queued in order. -/
def queueReports (rs : List Report) (s : State) : State := rs.foldl (fun s r => queueReport r s) s

/-- R191: the attention line. -/
def State.attention (s : State) : Bool := !s.link.reports.isEmpty

/-! ### The set record pool (R44) -/

/-- The slots in rising order. -/
def allSlots : List Slot := [0, 1, 2, 3, 4, 5, 6, 7, 8, 9, 10, 11, 12, 13, 14, 15]

/-- The set record in a slot. -/
def State.setAt (s : State) (i : Slot) : Option SetRecord := s.reg.pool[i]

/-- R44: the lowest-numbered free slot. -/
def State.freeSlot (s : State) : Option Slot := allSlots.find? fun i => (s.setAt i).isNone

/-- A slot written. -/
def State.putSet (s : State) (i : Slot) (r : Option SetRecord) : State :=
  { s with reg.pool := s.reg.pool.set i.val r i.isLt }

/-- The record of a slot changed, where the slot holds one. -/
def State.modSet (s : State) (i : Slot) (f : SetRecord → SetRecord) : State :=
  s.putSet i ((s.setAt i).map f)

/-- The record of a slot changed, where there is a slot. -/
def State.modSet? (s : State) (i : Option Slot) (f : SetRecord → SetRecord) : State :=
  match i with
  | some i => s.modSet i f
  | none => s

/-- A fault added to a set; a fault is never removed (R44). -/
def addFault (k : FaultKind) (i : Slot) (s : State) : State :=
  s.modSet i fun r => { r with faults := addKind r.faults k }

/-- A fault added to the set a place holds, if it holds one. -/
def addFault? (k : FaultKind) (i : Option Slot) (s : State) : State :=
  match i with
  | some i => addFault k i s
  | none => s

/-- The set that a place holds. -/
def State.setAt? (s : State) (i : Option Slot) : Option SetRecord := i.bind s.setAt

/-- R44: the sets in flight. -/
def State.setsInFlight (s : State) : Nat := s.reg.pool.toList.countP Option.isSome

/-- R44: the sets in flight that have not been assigned a bin. -/
def State.unassigned (s : State) : Nat :=
  s.reg.pool.toList.countP fun r => match r with | some r => r.bin.isNone | none => false

/-- R45: free divert-list entries. -/
def State.freeDiverts (s : State) : Nat := Config.divertCapacity - s.reg.diverts.length

/-- R148: free manifest entries. -/
def State.freeManifest (s : State) : Nat := Config.manifestCapacity - s.postage.manifest.length

/-- R45: the reserve condition. -/
def State.reserve (s : State) : Bool :=
  s.setsInFlight + 1 ≤ s.freeDiverts && s.unassigned + 1 ≤ s.freeManifest

/-- A blank record: every field cleared (R44), with the stage a set starts in (R12). -/
def blankSet : SetRecord :=
  { piece := none, record := none, governing := 0, provingStart := false, received := 0, lastIndex := none
    lastWrap := none, stationsNeeded := 0, stage := .accumulating, faults := 0, heff := none, stop1 := none
    stop2 := none, marginal := false, caliper := none, expected := none, stationsDone := 0, insertDone := false
    measured := none, scan := none, bin := none, tray := none, group := none, step := none }

/-! ### Counts that stop (R46, R151) -/

/-- A 32-bit count raised, which stops at 4,294,967,295. -/
def countUp (n k : Nat) : Nat := min (n + k) Config.counterMax

/-- R151: a total lowered; a total that has stopped is not lowered. -/
def countDown (n k : Nat) : Nat := if Config.counterMax ≤ n then n else n - k

/-! ### Line state changes (R155) -/

/-- The line enters a state: one STATE_CHANGE is queued. On entering a motion state an assignment is asked for again
for the carrier at P11 (R133). -/
def enterState (new : LineState) (reason : Reason) (s : State) : State :=
  queueReport (.stateChange new s.line.state reason)
    { s with line.state := new, track.assignDue := s.track.assignDue || new.motion }

/-- What a block asks of Line Control. -/
inductive LineRequest where
  | pause (reason : Reason)
  | stop (reason : Reason)
  deriving DecidableEq, Repr

/-! ### Outstanding operations and sections (R164) -/

/-- Whether a feed is outstanding: from the feed request to the end of the feed (R5, R137). -/
def State.feeding (s : State) : Bool :=
  match s.coll.transit with
  | .feeding .. => true
  | _ => false

/-- Whether the gate is passing a sheet. -/
def State.gatePassing (s : State) : Bool :=
  match s.sets.gate with
  | .passing _ => true
  | .closed _ => false

/-- Whether a release is outstanding. -/
def State.releasing (s : State) : Bool :=
  match s.sets.release with
  | .early _ | .forward _ => true
  | .none | .pending => false

/-- Whether the folder is IDLE or WAITING. -/
def State.folderAtRest (s : State) : Bool :=
  match s.sets.folder with
  | .idle | .waiting => true
  | .moving .. | .folding _ => false

/-- Whether a refill attempt of a station is outstanding. -/
def RefillSeq.outstanding : RefillSeq → Bool
  | .running .. => true
  | _ => false

/-- Whether an operation of the Track Controller is outstanding (R123). -/
def Track.busy (t : Track) : Bool :=
  t.index.isSome || t.stations.toList.any (fun st => st.drop.isSome || st.seq.outstanding) ||
    t.head.insert.isSome || t.head.refill.isSome || t.scan.isSome || t.weigh.isSome || t.delivery.isSome

/-- R164: the sections not at rest. -/
def State.notAtRest (s : State) : Sections :=
  { feed := s.feeding
    set := s.gatePassing || s.releasing || !s.folderAtRest
    track := s.track.busy }

/-- No section. -/
def noSections : Sections := ⟨false, false, false⟩

/-! ### Jam zones in motion (R120) -/

/-- Whether a zone is in motion: FEED while a feed is outstanding or the gate stands PASSING, FOLD as R91 gives, TRACK
while an index is outstanding, SORT while a delivery is outstanding. -/
def State.zoneMotion (s : State) (z : Fin 4) : Bool :=
  match z.val with
  | 0 => s.feeding || s.gatePassing
  | 1 =>
    (match s.sets.folder with | .moving .. | .folding _ => true | _ => false) ||
      (match s.sets.release with | .forward _ => true | _ => false)
  | 2 => s.track.index.isSome
  | _ => s.track.delivery.isSome

/-- R120: the jam time of a zone. -/
def LineConfig.jamTime (c : LineConfig) (z : Fin 4) : Nat :=
  match z.val with
  | 0 => c.jamFeed
  | 1 => c.jamFold
  | 2 => c.jamTrack
  | _ => c.jamSort

/-- R120: a zone's jam timers when its motion is looked at: started for each blocked sensor when the zone enters
motion, cancelled when it leaves motion. -/
def watchZone (motion : Bool) (start : Timer) (z : JamZone) : JamZone :=
  if motion then
    if z.motion then z
    else
      let f := fun (k : JamSensor) => { k with timer := if k.blocked then some start else none }
      { z with motion := true, sensors := #v[f z.sensors[0], f z.sensors[1], f z.sensors[2], f z.sensors[3]] }
  else
    let f := fun (k : JamSensor) => { k with timer := none }
    { z with motion := false, sensors := #v[f z.sensors[0], f z.sensors[1], f z.sensors[2], f z.sensors[3]] }

/-- R120: the jam timers of all four zones brought up to the zones' motion. -/
def watchZones (s : State) : State :=
  let w := fun (z : Fin 4) => watchZone (s.zoneMotion z) (s.timer (s.cfg.jamTime z)) s.track.zones[z]
  { s with track.zones := #v[w 0, w 1, w 2, w 3] }

/-! ### Stations' state changes (R110) -/

/-- R110: whether a station state is OFF, EMPTY or TRIPPED. -/
def StationState.reported : StationState → Bool
  | .off | .empty | .tripped => true
  | _ => false

/-- A station's runtime record written. -/
def putStation (n : StationId) (st : Station) (s : State) : State :=
  { s with track.stations := s.track.stations.set n.val st n.isLt }

/-- A station's record. -/
def State.station (s : State) (n : StationId) : Station := s.track.stations[n]

/-- A station's state changed, with the STATION_CHANGE report of a change into or out of OFF, EMPTY or TRIPPED (R110).
A station that leaves one of them for REFILLING is announced again when its refill makes it READY. -/
def changeStation (n : StationId) (new : StationState) (cause : StationCause) (s : State) : State :=
  let st := s.station n
  if st.state = new then s
  else
    let s1 := putStation n { st with state := new
                                     announce := st.state.reported && new == .refilling } s
    if st.state.reported || new.reported then queueReport (.stationChange n st.state new cause) s1 else s1

/-! ### Cut-off of outstanding operations (R22, R95, R121) -/

/-- R22: the sheet in transit at a stop. -/
def cutOffFeed (s : State) : State :=
  match s.coll.transit with
  | .none => s
  | .feeding tag _ _ =>
    addFault? .disturbed s.coll.current
      { s with coll.transit := .none, coll.closedTag := if tag.isSome then tag else s.coll.closedTag }
  | .decided slot _ => addFault .disturbed slot s

/-- R95: the Set Handler's operations at a stop. The gate stays PASSING until the sheet-in event. -/
def cutOffSets (s : State) : State :=
  let s := if s.releasing then addFault? .disturbed s.sets.accumulator { s with sets.release := .pending } else s
  match s.sets.folder with
  | .moving p1 p2 _ =>
    addFault? .disturbed s.sets.folderSet
      { s with sets.folder := .waiting
               sets.plate1 := if p1.isSome then none else s.sets.plate1
               sets.plate2 := if p2.isSome then none else s.sets.plate2 }
  | .folding _ => addFault? .disturbed s.sets.folderSet { s with sets.folder := .waiting }
  | .idle | .waiting => s

/-- The set on a carrier. -/
def State.carrier (s : State) (p : Position) : Option Slot := s.track.carriers[p]

/-- The track position of a station: S1 stands at P1. -/
def stationPosition (n : StationId) : Position := ⟨n.val + 1, by omega⟩

/-- The sets on the carriers, from P0 to P11. -/
def State.carrierSets (s : State) : List Slot := s.track.carriers.toList.filterMap id

/-- R121, R92: an index at a stop: every set on a carrier and the set in the fold exit buffer get DISTURBED. -/
def cutOffIndex (s : State) : State :=
  if s.track.index.isSome then
    (s.carrierSets ++ s.sets.buffer.toList).foldl (fun s i => addFault .disturbed i s) { s with track.index := none }
  else s

/-- R121: a station's drop or refill attempt at a stop. -/
def cutOffStation (s : State) (n : StationId) : State :=
  let st := s.station n
  if st.drop.isSome then
    let s := addFault? .disturbed (s.carrier (stationPosition n)) s
    if st.pendingDisable then
      changeStation n .off .host (putStation n { st with drop := none, seq := .none, pendingDisable := false } s)
    else putStation n { st with state := .refilling, drop := none, seq := .waiting 1 } s
  else
    match st.seq with
    | .running k _ => putStation n { st with seq := .waiting k } s
    | _ => s

/-- R121: the insert head and the exit checks at a stop. -/
def cutOffHead (s : State) : State :=
  let s := if s.track.head.insert.isSome then addFault? .disturbed (s.carrier 8) { s with track.head.pocket := .refilling } else s
  let s := if s.track.scan.isSome || s.track.weigh.isSome then addFault? .disturbed (s.carrier 10) s else s
  { s with track.head.insert := none, track.head.refill := none, track.scan := none, track.weigh := none }

/-- R121: the Track Controller's operations at a stop; a set in the transport stays IN_TRANSPORT. The stations are taken from S1 to S6,
in which order the STATION_CHANGE reports of those left OFF are queued (DESIGN CHOICE, log entry 27). -/
def cutOffTrack (s : State) : State :=
  let s := allStations.foldl cutOffStation (cutOffIndex s)
  let s := cutOffHead s
  { s with track.delivery := none }

/-- R171: every block's outstanding operations cut off. -/
def cutOffAll (s : State) : State := cutOffTrack (cutOffSets (cutOffFeed s))

/-! ### Stops and pauses (R162, R171) -/

/-- R171: the line enters FAULT_STOP with its stop reason, and stops at once. -/
def enterFaultStop (reason : Reason) (s : State) : State :=
  cutOffAll (enterState .faultStop reason { s with line.stopReason := some reason, line.pendingPause := noSections })

/-- R171: a fault stop asked for. A line leaving a motion state makes it its return state; a line leaving PAUSING keeps
the return state it held. Outside the motion states and PAUSING the request changes nothing (R53). -/
def faultStop (reason : Reason) (s : State) : State :=
  match s.line.state with
  | .purge | .proving | .running | .runout =>
    enterFaultStop reason { s with line.returnState := some s.line.state }
  | .pausing => enterFaultStop reason s
  | _ => s

/-- R162: a pause asked for. In PURGE, PROVING and RUNNING it takes the line to PAUSING; otherwise nothing changes. -/
def pauseLine (reason : Reason) (s : State) : State :=
  match s.line.state with
  | .purge | .proving | .running =>
    enterState .pausing reason
      { s with line.returnState := some s.line.state, line.stopReason := some reason, line.pendingPause := s.notAtRest }
  | _ => s

/-- Line Control takes a request. -/
def takeRequest (s : State) : LineRequest → State
  | .pause r => pauseLine r s
  | .stop r => faultStop r s

/-- R53: what a trip with action STOP meets at Line Control. -/
def stopOutcome : LineState → TripOutcome
  | .purge | .proving | .running | .runout | .pausing => .stopped
  | .faultStop => .alreadyStopped
  | _ => .atRest

end Sys2Proof.Machine
end

