-- ==== Sys2Proof/Machine/Monitor.lean ====
section
/-! DEFINITION. The fault-rate monitors (chapter 3, sections 3.1 to 3.4). -/

namespace Sys2Proof.Machine

/-- R48, R49: a monitor's parameters in force. -/
def State.monParams (s : State) : MonitorId → MonParams
  | .read => s.cfg.readMon
  | .envelope => s.cfg.envelopeMon
  | .exit => s.cfg.exitMon
  | .station n => s.plant.stations[n].mon

/-- A monitor's level and good count. -/
def State.monLevel (s : State) : MonitorId → MonLevel
  | .read => s.mon.read
  | .envelope => s.mon.envelope
  | .exit => s.mon.exit
  | .station n => s.mon.stations[n]

/-- A monitor's level and good count written. -/
def putMonLevel (m : MonitorId) (l : MonLevel) (s : State) : State :=
  match m with
  | .read => { s with mon.read := l }
  | .envelope => { s with mon.envelope := l }
  | .exit => { s with mon.exit := l }
  | .station n => { s with mon.stations := s.mon.stations.set n.val l n.isLt }

/-- R103, R53: a monitor's trip action. -/
def State.tripAction (s : State) : MonitorId → TripAction
  | .station n => s.plant.stations[n].trip
  | _ => .stop

/-- R52: whether a monitor takes events: only while a job is open, and a station's only while it stands neither OFF nor
TRIPPED. -/
def State.takesEvents (s : State) (m : MonitorId) : Bool :=
  s.jobOpen &&
    match m with
    | .station n => (s.station n).state != .off && (s.station n).state != .tripped
    | _ => true

/-- 3.1, R53: the stop reason of a trip. -/
def tripReason : MonitorId → Reason
  | .read => .readMonitor
  | .envelope => .envelopeMonitor
  | .exit => .exitMonitor
  | .station n => .stationMonitor n

/-- R50, R54, R55: a trip: the level and good count return to 0, the MONITOR_TRIP is queued, and a station whose action
is DISABLE becomes TRIPPED. A STOP is handed back as a request to Line Control. -/
def tripMonitor (m : MonitorId) (cause : TripCause) (reached : Nat) (piece : Option Nat) (s : State) :
    State × Option LineRequest :=
  let s1 := putMonLevel m .zero s
  match m, s.tripAction m with
  | .station n, .disable =>
    (changeStation n .tripped .trip
      (queueReport (.monitorTrip m cause reached (s.monParams m) .disable .disabled piece) s1), none)
  | _, _ =>
    (queueReport (.monitorTrip m cause reached (s.monParams m) .stop (stopOutcome s.line.state) piece) s1,
      some (.stop (tripReason m)))

/-- R50: a fault event, with the request a trip makes handed back. -/
def faultEvent (m : MonitorId) (cause : TripCause) (piece : Option Nat) (s : State) : State × Option LineRequest :=
  if s.takesEvents m then
    let p := s.monParams m
    let l := s.monLevel m
    if l.level + p.u < p.t then (putMonLevel m { l with level := l.level + p.u } s, none)
    else tripMonitor m cause (l.level + p.u) piece s
  else (s, none)

/-- Line Control takes what a block asked of it, if anything. -/
def takeOption (p : State × Option LineRequest) : State :=
  match p.2 with
  | some r => takeRequest p.1 r
  | none => p.1

/-- R50, R53: a fault event whose trip is taken at once. -/
def monitorFault (m : MonitorId) (cause : TripCause) (piece : Option Nat) (s : State) : State :=
  takeOption (faultEvent m cause piece s)

/-- R51: a good event's effect on a level and good count with `d` good events to a step. -/
def goodStep (d : Nat) (l : MonLevel) : MonLevel :=
  if l.good + 1 < d then { l with good := l.good + 1 } else { level := l.level - 1, good := 0 }

/-- R51: a good event. -/
def monitorGood (m : MonitorId) (s : State) : State :=
  if s.takesEvents m then putMonLevel m (goodStep (s.monParams m).d (s.monLevel m)) s else s

/-- R49: a level and good count adjusted to new parameters. -/
def adjustLevel (p : MonParams) (l : MonLevel) : MonLevel :=
  { level := min l.level (p.t - 1), good := min l.good (p.d - 1) }

end Sys2Proof.Machine
end

