-- ==== Sys2Proof/Machine/Pieces.lean ====
section
/-! DEFINITION. The Piece Register's operations: the completion window, the piece queue and matching (chapter 2, sections
2.2 to 2.4), and the range filter's test (R24). -/

namespace Sys2Proof.Machine

/-! ### The completion window (R34 to R36) -/

/-- The state of a number in a window held as the rising list of its numbers that are not FREE. -/
def windowGet : List (Nat × PieceState) → Nat → PieceState
  | [], _ => .free
  | (q, st) :: rest, p => if q = p then st else if p < q then .free else windowGet rest p

/-- A number's state written; FREE removes the entry, so that the list keeps its one form. -/
def windowSet : List (Nat × PieceState) → Nat → PieceState → List (Nat × PieceState)
  | [], p, st => if st = .free then [] else [(p, st)]
  | (q, sq) :: rest, p, st =>
    if q = p then (if st = .free then rest else (p, st) :: rest)
    else if p < q then (if st = .free then (q, sq) :: rest else (p, st) :: (q, sq) :: rest)
    else (q, sq) :: windowSet rest p st

/-- The window's one form: piece numbers strictly rising, no FREE entry. -/
def windowWf : List (Nat × PieceState) → Bool
  | [] => true
  | [(_, st)] => st != .free
  | (p, st) :: (q, sq) :: rest => st != .free && p < q && windowWf ((q, sq) :: rest)

/-- R36: whether a state lets the base pass. -/
def PieceState.settled : PieceState → Bool
  | .delivered | .voided => true
  | _ => false

/-- R36: the base moved past DELIVERED and VOIDED numbers, each leaving the window. -/
def advanceBase : Nat → List (Nat × PieceState) → Nat × List (Nat × PieceState)
  | base, [] => (base, [])
  | base, (q, st) :: rest =>
    if q = base && st.settled && base < Config.maxPiece then advanceBase (base + 1) rest else (base, (q, st) :: rest)

/-- The window state of a piece number, where it lies in the window of an open job (R34). -/
def State.pieceState (s : State) (p : Nat) : PieceState := windowGet s.reg.window p

/-- A piece's window state written. -/
def setPiece (p : Nat) (st : PieceState) (s : State) : State :=
  { s with reg.window := windowSet s.reg.window p st }

/-- R36: the base advanced after an event that settled a piece. -/
def advanceWindow (s : State) : State :=
  { s with reg.base := (advanceBase s.reg.base s.reg.window).1
           reg.window := (advanceBase s.reg.base s.reg.window).2 }

/-- Where a piece number lies (R43). -/
inductive Place where
  | below | within | above
  deriving DecidableEq, Repr

/-- The place of a piece number. -/
def State.place (s : State) (p : Nat) : Place :=
  if p < s.reg.base then .below else if p < s.reg.base + Config.windowSize then .within else .above

/-- The position of a piece's record in the queue: the number of records older than it (R31). -/
def State.queuePosition (s : State) (p : Nat) : Option Nat := s.reg.queue.findIdx? fun r => r.piece = p

/-- The slot of the set in flight that holds a piece's matched record. -/
def State.holder (s : State) (p : Nat) : Option Slot :=
  allSlots.find? fun i =>
    match s.setAt i with
    | some r => r.record.isSome && r.piece = some p
    | none => false

/-! ### The low-water flag (R30) -/

/-- The flag is armed whenever the count reaches the low mark or more. -/
def armLowWater (s : State) : State :=
  if s.cfg.queueLow ≤ s.reg.queue.length then { s with reg.lowArmed := true } else s

/-- R30: the test after an event that removed records, `before` being the count before it. -/
def lowWater (before : Nat) (s : State) : State :=
  if s.cfg.queueLow ≤ before && s.reg.queue.length < s.cfg.queueLow && s.reg.lowArmed then
    queueReport (.queueLow s.reg.queue.length s.reg.base) { s with reg.lowArmed := false }
  else s

/-! ### Matching (R31 to R33) -/

/-- The answer to a match. -/
inductive MatchAnswer where
  | matched (record : PieceRecord)
  | unknownPiece
  | duplicatePiece
  deriving DecidableEq, Repr

/-- R32: the answer for a number that no queued record matches. -/
def State.unmatchedAnswer (s : State) (p : Nat) : MatchAnswer :=
  match s.place p with
  | .below => .duplicatePiece
  | .above => .unknownPiece
  | .within =>
    match s.pieceState p with
    | .free | .diverted | .missing => .unknownPiece
    | .held | .delivered | .voided => .duplicatePiece

/-- R31: a record passed over: its piece becomes MISSING, with a PIECE_MISSING report and the counter raised. -/
def passOver (cause : Nat) (s : State) (r : PieceRecord) : State :=
  queueReport (.pieceMissing r.piece cause)
    { s with reg.window := windowSet s.reg.window r.piece .missing
             reg.counters.missing := countUp s.reg.counters.missing 1 }

/-- R31 to R33: the Piece Register matches a set's piece number. -/
def matchPiece (p : Nat) (s : State) : MatchAnswer × State :=
  match s.queuePosition p, s.reg.job with
  | some j, some job =>
    match s.reg.queue[j]? with
    | none => (.unknownPiece, s)
    | some r =>
      match job.mode with
      | .lookup =>
        (.matched r, lowWater s.reg.queue.length { s with reg.queue := s.reg.queue.eraseIdx j })
      | .sequence =>
        if j ≤ job.skip then
          let older := s.reg.queue.take j
          let s1 := older.foldl (passOver p) { s with reg.queue := s.reg.queue.drop (j + 1) }
          (.matched r, lowWater s.reg.queue.length s1)
        else (.unknownPiece, s)
  | _, _ => (s.unmatchedAnswer p, s)

/-! ### The range filter (R24) -/

/-- R24: whether a range filter excludes a piece number. -/
def RangeFilter.excludes (f : RangeFilter) (p : Nat) : Bool :=
  let inRange := f.ranges.toList.any fun r => r.enabled && r.low ≤ p && p ≤ r.high
  match f.sense with
  | .inside => inRange
  | .outside => !inRange

end Sys2Proof.Machine
end

