-- ==== Sys2Proof/Machine/Flight.lean ====
section
/-! DEFINITION. A set's way out: completion at the accumulator (R20, R66), the entry to RUNOUT (R21, R166), proving (R57 to
R61), diversion (R38) and delivery (R39). -/

namespace Sys2Proof.Machine

/-! ### Completion (R20) -/

/-- R65: the insert calipers of a set of stations, summed. -/
def State.insertCaliper (s : State) (t : StationSet) : Nat :=
  ((stationList t).map fun n => s.plant.stations[n].caliper).sum

/-- R65, R80: the insert weights of a set of stations, summed. -/
def State.insertWeight (s : State) (t : StationSet) : Nat :=
  ((stationList t).map fun n => s.plant.stations[n].weight).sum

/-- R105: whether a station of a set stands OFF or TRIPPED. -/
def State.stationMissing (s : State) (t : StationSet) : Bool :=
  (stationList t).any fun n => (s.station n).state == .off || (s.station n).state == .tripped

/-- R66: the Fold Planner's computation for `n` sheets of a record, as the tables stand; nothing for an unset plan. -/
def State.planSet (s : State) (rec : PieceRecord) (needed : StationSet) (n : Nat) : FoldResult :=
  match s.plant.plans[rec.plan] with
  | some p => foldCompute s.cfg p n (s.insertCaliper needed) (s.insertWeight needed) (lastBound s.postal.steps)
  | none => { heff := none, stop1 := none, stop2 := none, marginal := false, caliper := none, expected := none, faults := 0 }

/-- R20, R66, R105: a set's record after its completion. A stray or a bundle is not computed. -/
def State.completedRecord (s : State) (r : SetRecord) : SetRecord :=
  match r.record with
  | none => { r with stage := .complete }
  | some rec =>
    let needed := s.plant.classes[rec.insertClass]
    let f := s.planSet rec needed r.received
    { r with stage := .complete, stationsNeeded := needed, heff := f.heff, stop1 := f.stop1, stop2 := f.stop2
             marginal := f.marginal, caliper := f.caliper, expected := f.expected
             faults := addKindIf (s.stationMissing needed) .stationOff (r.faults ||| f.faults) }

/-- R20, R46, R84: a set completes: its record is settled, the counter of good or faulted sets rises, and its release
becomes PENDING. -/
def completeSet (i : Slot) (s : State) : State :=
  match s.setAt i with
  | none => s
  | some r =>
    let r' := s.completedRecord r
    let s1 := { s.putSet i (some r') with sets.release := .pending }
    if r'.faults = 0 then { s1 with reg.counters.good := countUp s1.reg.counters.good 1 }
    else { s1 with reg.counters.faulted := countUp s1.reg.counters.faulted 1 }

/-! ### RUNOUT (R21, R166) -/

/-- R21: an open bundle closed to further sheets: it completes at once when all its decided sheets are in, and
otherwise at the sheet-in event of the last. -/
def closeOpenBundle (s : State) : State :=
  match s.coll.state, s.coll.current with
  | .hunt, some i =>
    let s1 := { s with coll.state := .setStart, coll.current := none, coll.huntCount := 0 }
    match s.coll.transit with
    | .decided j _ => if j = i then { s1 with coll.transit := .decided j true } else completeSet i s1
    | _ => completeSet i s1
  | _, _ => s

/-- The line enters RUNOUT with a target: the return state becomes absent and the pending pause is discarded (R166; on the failure
of proving in PAUSING, which the rules give for the pending pause alone, DESIGN CHOICE, log entry 34). -/
def enterRunout (target : RunoutTarget) (reason : Reason) (s : State) : State :=
  closeOpenBundle <| enterState .runout reason
    { s with line.returnState := none, line.pendingPause := noSections, line.runoutTarget := target }

/-! ### Proving (R57 to R61) -/

/-- R58: whether proving is in force. -/
def State.provingInForce (s : State) : Bool :=
  s.mon.proving == .active &&
    match s.line.state with
    | .proving => true
    | .pausing | .paused | .faultStop | .interlock => s.line.returnState == some .proving
    | _ => false

/-- R161: Line Control is told that proving has passed. -/
def provingPassed (s : State) : State :=
  match s.line.state with
  | .proving => enterState .running .provingPassed s
  | .pausing => if s.line.returnState = some .proving then { s with line.returnState := some .running } else s
  | _ => s

/-- R161: Line Control is told that proving has failed. -/
def provingFailed (s : State) : State :=
  match s.line.state with
  | .proving | .pausing => enterRunout .jobIdle .provingFailed s
  | _ => s

/-- R58, R59: a counting delivery. -/
def provingDelivered (s : State) : State :=
  let g := s.mon.provingGood + 1
  let s1 := { s with mon.provingGood := g }
  if g = s.cfg.provingP then
    provingPassed <| queueReport (.provingDone .passed g s.mon.provingFault s.cfg.provingP s.cfg.provingM none)
      { s1 with mon.proving := .passed }
  else s1

/-- R58, R60: a counting divert, with its divert number. -/
def provingDiverted (number : Nat) (s : State) : State :=
  let f := s.mon.provingFault + 1
  let s1 := { s with mon.provingFault := f }
  if f = s.cfg.provingM then
    provingFailed <| queueReport (.provingDone .failed s.mon.provingGood f s.cfg.provingP s.cfg.provingM (some number))
      { s1 with mon.proving := .failed }
  else s1

/-- R61: active proving abandoned. -/
def abandonProving (s : State) : State :=
  if s.mon.proving = .active then { s with mon.proving := .abandoned } else s

/-! ### Diversion and delivery (R38, R39) -/

/-- R37: the divert number after one: after 65,535 the next is 1. -/
def nextNumber (n : Nat) : Nat := if Config.maxNumber ≤ n then 1 else n + 1

/-- R38: the entry of a set's diversion, and what goes with it in the register: the window state of a matched piece, and
the counter of the entry's kind. -/
def enterDivert (r : SetRecord) (point : DivertPoint) (s : State) : State :=
  let kind : DivertKind := if r.record.isSome then .matched else .stray
  let entry : DivertEntry := { number := s.reg.nextDivert, kind, piece := r.piece, reasons := r.faults, point, sheets := r.received, time := s.time }
  let s1 := { s with reg.diverts := s.reg.diverts ++ [entry], reg.nextDivert := nextNumber s.reg.nextDivert }
  let s2 := match r.record, r.piece with
    | some _, some p => setPiece p .diverted s1
    | _, _ => s1
  let s3 := queueReport (.pieceDiverted entry.number kind r.piece r.faults point r.received) s2
  match kind with
  | .matched => { s3 with reg.counters.divertedMatched := countUp s3.reg.counters.divertedMatched 1 }
  | .stray => { s3 with reg.counters.divertedStray := countUp s3.reg.counters.divertedStray 1 }

/-- R38: a set is diverted: the entry and the report, the completion passed to proving, the record freed. -/
def divertSet (i : Slot) (point : DivertPoint) (s : State) : State :=
  match s.setAt i with
  | none => s
  | some r =>
    let s1 := enterDivert r point s
    let s2 := if s.provingInForce && r.provingStart && countsAsFault r.faults then provingDiverted s.reg.nextDivert s1 else s1
    s2.putSet i none

/-- R39: a set is delivered: its matched piece becomes DELIVERED, the counter rises, the base advances, the completion
passes to proving (with no effect on it for a piece taken as delivered on Recover, R58), and the record is freed. -/
def deliverSet (i : Slot) (unconfirmed : Bool) (s : State) : State :=
  match s.setAt i with
  | none => s
  | some r =>
    let s1 := match r.record, r.piece with
      | some _, some p => setPiece p .delivered s
      | _, _ => s
    let s2 := advanceWindow { s1 with reg.counters.delivered := countUp s1.reg.counters.delivered 1 }
    let s3 := if s.provingInForce && r.provingStart && !unconfirmed then provingDelivered s2 else s2
    s3.putSet i none

end Sys2Proof.Machine
end

