-- ==== Sys2Proof/Machine/Trays.lean ====
section
/-! DEFINITION. The Presort Unit's and the Postage and Manifest Unit's operations (chapters 7 and 8): lookup, choice of a
bin, joining and closing a tray, qualification and pricing, withdrawal, the sweep, and the end of a job. -/

namespace Sys2Proof.Machine

/-- The bins in the order B1 to B10, BR. -/
def allBins : List BinId := [0, 1, 2, 3, 4, 5, 6, 7, 8, 9, 10]

/-- The group bins B1 to B10. -/
def groupBins : List BinId := [0, 1, 2, 3, 4, 5, 6, 7, 8, 9]

/-- The residual bin BR. -/
def residualBin : BinId := 10

/-- The residual group. -/
def residualGroup : Nat := 255

/-- A bin. -/
def State.bin (s : State) (b : BinId) : Bin := s.presort.bins[b]

/-- A bin written. -/
def putBin (b : BinId) (x : Bin) (s : State) : State :=
  { s with presort.bins := s.presort.bins.set b.val x b.isLt }

/-- The open tray of a bin. -/
def Bin.tray (b : Bin) : Option Tray :=
  match b.state with
  | .open t => some t
  | _ => none

/-! ### Lookup (R125) -/

/-- The five digits of a destination key as characters (R26, 11.6). -/
def keyDigits (k : Nat) : List Byte :=
  [k / 10000, k / 1000, k / 100, k / 10, k].map fun n => BitVec.ofNat 8 (0x30 + n % 10)

/-- R125: whether a scheme entry's digits equal the first digits of a key. -/
def entryMatches (k : Nat) (e : SchemeEntry) : Bool := (keyDigits k).take e.len == schemeDigits e

/-- The longer of two matching entries. -/
def longerEntry (best : Option SchemeEntry) (e : SchemeEntry) : Option SchemeEntry :=
  match best with
  | none => some e
  | some b => if b.len < e.len then some e else best

/-- R125: the sort group of a destination key: that of the longest match, and the residual group where none matches or
there is no key. -/
def lookupGroup (scheme : Vector (Option SchemeEntry) 256) (key : Option Nat) : Nat :=
  match key with
  | none => residualGroup
  | some k =>
    match (((scheme.toList.filterMap id).filter (entryMatches k)).foldl longerEntry none) with
    | some e => e.group
    | none => residualGroup

/-! ### Qualification and pricing (R144, R145) -/

/-- R144: the level of a tray of a group and a piece count, as the tables stand. -/
def trayLevel (p : Postal) (group count : Nat) : Level :=
  if h : group < 255 then
    if p.levels[group] = .direct ∧ p.minDirect ≤ count then .direct
    else if p.minArea ≤ count then .area
    else .mixed
  else .mixed

/-- The rates of a level. -/
def Postal.levelRates (p : Postal) : Level → Vector Nat 8
  | .direct => p.rates[0]
  | .area => p.rates[1]
  | .mixed => p.rates[2]

/-- R145: the postage of step counts at a level. -/
def trayPostage (p : Postal) (level : Level) (steps : Vector Nat 8) : Nat :=
  (List.zipWith (· * ·) steps.toList (p.levelRates level).toList).sum

/-! ### Postal totals (R151) -/

/-- The totals of a level. -/
def Postage.totals (g : Postage) : Level → LevelTotals
  | .direct => g.direct
  | .area => g.area
  | .mixed => g.mixed

/-- The totals of a level written. -/
def Postage.putTotals (g : Postage) (l : Level) (t : LevelTotals) : Postage :=
  match l with
  | .direct => { g with direct := t }
  | .area => { g with area := t }
  | .mixed => { g with mixed := t }

/-- A level's totals raised by one tray. -/
def LevelTotals.add (t : LevelTotals) (pieces postage : Nat) : LevelTotals :=
  { trays := countUp t.trays 1, pieces := countUp t.pieces pieces, postage := countUp t.postage postage }

/-- A level's totals lowered by one tray (R152). -/
def LevelTotals.remove (t : LevelTotals) (pieces postage : Nat) : LevelTotals :=
  { trays := countDown t.trays 1, pieces := countDown t.pieces pieces, postage := countDown t.postage postage }

/-! ### Closing a tray (R132, R146) -/

/-- R146 step 3: the manifest entry of a tray that closes now. -/
def State.closeEntry (s : State) (b : BinId) (t : Tray) (cause : CloseCause) : ManifestEntry :=
  let level := trayLevel s.postal t.group t.count
  { job := (s.reg.job.map Job.code).getD 0, tray := t.number, bin := b, group := t.group, count := t.count
    weight := t.weight, steps := t.steps, first := t.first, last := t.last, openTime := t.openTime
    closeTime := s.time, cause, level, postage := trayPostage s.postal level t.steps
    revision := s.postal.revision, withdrawn := 0 }

/-- R146: the Postage and Manifest Unit's part of a close. -/
def listTray (b : BinId) (t : Tray) (cause : CloseCause) (s : State) : State :=
  let e := s.closeEntry b t cause
  let g := s.postage.putTotals e.level ((s.postage.totals e.level).add e.count e.postage)
  queueReport (.trayClosed t.number b t.group t.count e.level e.postage cause none none)
    { s with postage := { g with manifest := s.postage.manifest ++ [e]
                                 closedPieces := countUp s.postage.closedPieces e.count } }

/-- R132: an OPEN bin's tray closes with a cause; the bin becomes SWAP. -/
def closeBin (b : BinId) (cause : CloseCause) (s : State) : State :=
  match (s.bin b).state with
  | .open t =>
    let s1 := listTray b t cause s
    queueReport (.binChange (.sort b) .swap (some t.number) (some t.group) (some t.count) none (some cause))
      (putBin b { state := .swap, lastTray := some t.number, onWay := (s.bin b).onWay } s1)
  | _ => s

/-! ### Assignment (R129 to R131) -/

/-- R129: the bin chosen for a group; none is the answer BLOCKED. -/
def State.chooseBin (s : State) (g : Nat) : Option BinId :=
  let own := if g < 255 then groupBins.find? (fun b => match (s.bin b).tray with | some t => t.group == g | none => false) else none
  let free := if g < 255 then groupBins.find? (fun b => (s.bin b).state == .free) else none
  match own, free with
  | some b, _ => some b
  | none, some b => some b
  | none, none => if (s.bin residualBin).state = .swap then none else some residualBin

/-- R130: a FREE bin opens a new tray of a group; an OPEN bin is left as it is. -/
def openTray (b : BinId) (g : Nat) (piece : Nat) (s : State) : State :=
  match (s.bin b).state with
  | .open _ => s
  | _ =>
    let n := s.presort.nextTray.getD 1
    let group := if b = residualBin then residualGroup else g
    let t : Tray := { number := n, group, count := 0, weight := 0, steps := .replicate 8 0, first := piece, last := piece, openTime := s.time }
    queueReport (.binChange (.sort b) .open (some n) (some group) none none none)
      (putBin b { (s.bin b) with state := .open t } { s with presort.nextTray := some (nextNumber n) })

/-- A tray's step count changed. -/
def bumpStep (steps : Vector Nat 8) (k : Nat) (f : Nat → Nat) : Vector Nat 8 :=
  if h : k < 8 then steps.set k (f steps[k]) h else steps

/-- R130: a tray after a piece joins it. -/
def Tray.join (t : Tray) (piece weight step : Nat) : Tray :=
  { t with count := t.count + 1, weight := t.weight + weight, steps := bumpStep t.steps step (· + 1), last := piece }

/-- R131: the cause with which a tray closes after a piece has joined, if it does. -/
def closeTest (c : LineConfig) (bound : Nat) (t : Tray) : Option CloseCause :=
  if t.count = c.trayCount then some .count
  else if c.trayWeight - bound ≤ t.weight then some .weight
  else none

/-- R130, R131: a piece joins a bin's open tray, and the tray is tested for closing. -/
def joinTray (b : BinId) (piece weight step : Nat) (s : State) : State :=
  match (s.bin b).state with
  | .open t =>
    let t' := t.join piece weight step
    let s1 := putBin b { (s.bin b) with state := .open t', onWay := (s.bin b).onWay + 1 } s
    match closeTest s.cfg ((lastBound s.postal.steps).getD 0) t' with
    | some cause => closeBin b cause s1
    | none => s1
  | _ => s

/-- R115: the postage weight of a set. -/
def SetRecord.postageWeight (r : SetRecord) : Nat := (r.measured.orElse fun _ => r.expected).getD 0

/-- R129 to R131: an assignment request for the set in a slot: the state after it and whether the answer was a bin. A set
whose weight has no step, which no set that reaches P11 is (R129), is not assigned. -/
def assignBin (i : Slot) (r : SetRecord) (s : State) : State × Bool :=
  let g := lookupGroup s.postal.scheme (r.record.bind PieceRecord.key)
  match s.chooseBin g, stepOf s.postal.steps r.postageWeight with
  | some b, some step =>
    let piece := r.piece.getD 0
    let s1 := openTray b g piece s
    let number := (s1.bin b).tray.map Tray.number
    let s2 := s1.modSet i fun r => { r with bin := some b, tray := number, group := some g, step := some step }
    (joinTray b piece r.postageWeight step { s2 with track.lateGate := .sort }, true)
  | _, _ => (s, false)

/-! ### Landing and withdrawal (R135, R139, R152, R153) -/

/-- R135: a piece has reached its bin. -/
def landPiece (b : BinId) (s : State) : State :=
  putBin b { (s.bin b) with onWay := (s.bin b).onWay - 1 } s

/-- R152: whether a manifest entry is that of a tray of the open job. -/
def State.entryOf (s : State) (tray : Nat) (e : ManifestEntry) : Bool :=
  e.job = (s.reg.job.map Job.code).getD 0 && e.tray = tray

/-- R152: an entry corrected for a withdrawn piece, its level and postage worked out again. -/
def correctEntry (p : Postal) (weight step : Nat) (e : ManifestEntry) : ManifestEntry :=
  let steps := bumpStep e.steps step (· - 1)
  let count := e.count - 1
  let level := if count = 0 then .mixed else trayLevel p e.group count
  { e with count, weight := e.weight - weight, steps, level
           postage := if count = 0 then 0 else trayPostage p level steps
           revision := p.revision, withdrawn := e.withdrawn + 1 }

/-- The newest entry that a test picks, replaced by `f` of it; the entry as it was and as it is. -/
def correctNewest (test : ManifestEntry → Bool) (f : ManifestEntry → ManifestEntry) :
    List ManifestEntry → Option (List ManifestEntry × ManifestEntry)
  | [] => none
  | e :: rest =>
    match correctNewest test f rest with
    | some (rest', old) => some (e :: rest', old)
    | none => if test e then some (f e :: rest, e) else none

/-- R152, R153: a withdrawal from a closed tray. The TRAY_CLOSED of R153 carries 0 pieces and postage 0 beside what the rule
lists (DESIGN CHOICE, log entry 34). -/
def withdrawClosed (b : BinId) (tray weight step : Nat) (group : Nat) (s : State) : State :=
  match correctNewest (s.entryOf tray) (correctEntry s.postal weight step) s.postage.manifest with
  | some (manifest, old) =>
    let new := correctEntry s.postal weight step old
    let g := s.postage.putTotals old.level ((s.postage.totals old.level).remove old.count old.postage)
    let g := g.putTotals new.level ((g.totals new.level).add new.count new.postage)
    { s with postage := { g with manifest, closedPieces := countDown g.closedPieces 1 } }
  | none =>
    queueReport (.trayClosed tray b group 0 .mixed 0 .withdraw (some step) (some weight))
      { s with postage.closedPieces := countDown s.postage.closedPieces 1
               postage.withdrawnAfter := countUp s.postage.withdrawnAfter 1 }

/-- R139: the piece of a set that holds a bin assignment is withdrawn. The BIN_CHANGE of a tray discarded names the tray and
its group, its count absent (DESIGN CHOICE, log entry 34). -/
def withdrawPiece (r : SetRecord) (s : State) : State :=
  match r.bin, r.tray, r.step with
  | some b, some n, some step =>
    let w := r.postageWeight
    let bin := s.bin b
    let onWay := bin.onWay - 1
    match bin.state with
    | .open t =>
      if t.number = n then
        if t.count ≤ 1 then
          queueReport (.binChange (.sort b) .free (some n) (some t.group) none none (some .withdraw))
            (putBin b { bin with state := .free, onWay } s)
        else
          let t' := { t with count := t.count - 1, weight := t.weight - w, steps := bumpStep t.steps step (· - 1) }
          putBin b { bin with state := .open t', onWay } s
      else withdrawClosed b n w step (if b = residualBin then residualGroup else r.group.getD residualGroup) (putBin b { bin with onWay } s)
    | _ => withdrawClosed b n w step (if b = residualBin then residualGroup else r.group.getD residualGroup) (putBin b { bin with onWay } s)
  | _, _, _ => s

/-! ### Sweep and the end of a job (R138, R140, R169) -/

/-- R169: the trays closed in the job. -/
def State.traysClosed (s : State) : Nat := s.postage.direct.trays + s.postage.area.trays + s.postage.mixed.trays

/-- R169, R170: JOB_ENDED queued, three entries. -/
def queueJobEnded (cause : JobEndCause) (s : State) : State :=
  let job := (s.reg.job.map Job.code).getD 0
  let c := s.reg.counters
  queueReports [.jobEnded1 job cause s.reg.diverts.length s.traysClosed c.started c.good,
    .jobEnded2 job c.faulted c.delivered c.divertedMatched, .jobEnded3 job c.divertedStray c.missing c.voided] s

/-- R169: the job discarded, block by block: the Piece Register clears its collections and keeps the range filter (R47),
the Collation Unit returns to IDLE (R23), and the other blocks take their job-end values (R82, R97, R127, R154). The late divert gate, of which no rule speaks here, turns to its divert side
(DESIGN CHOICE, log entry 17). -/
def discardJob (s : State) : State :=
  { s with
    reg := { s.reg with
      queue := [], base := 0, window := [], diverts := [], pool := .replicate 16 none, job := none, counters := .zero }
    coll := .reset
    sets := { SetHandler.reset with earlyCount := s.sets.earlyCount, plate1 := s.sets.plate1, plate2 := s.sets.plate2 }
    track := { s.track with
      carriers := .replicate 12 none, index := none, purgePitches := 0, scan := none, weigh := none, lateArmed := true
      transport := none, delivery := none, exitArmed := true, lateGate := .divert, assignDue := false, sortReported := false }
    presort := { s.presort with nextTray := none, sweepPosition := none }
    line := { s.line with
      returnState := none, origin := none, stopReason := none, runoutTarget := .none, pendingPause := noSections
      purgeHeldDone := false } }

/-- R169, R170: JOB_ENDED, the discard, and the line in READY. -/
def finishJob (cause : JobEndCause) (reason : Reason) (s : State) : State :=
  enterState .ready reason (discardJob (queueJobEnded cause s))

/-- R138: the sweep over the bins left, from position `k`: each OPEN bin closes while the manifest has a free entry; the
position at which it waits, or none when it has passed BR. -/
def sweepBins : List BinId → State → State × Option Nat
  | [], s => (s, none)
  | b :: rest, s =>
    match (s.bin b).state with
    | .open _ => if s.freeManifest = 0 then (s, some b.val) else sweepBins rest (closeBin b .sweep s)
    | _ => sweepBins rest s

/-- R138, R169: the sweep goes on while the line is in SWEEP, and ends the job when it has passed BR. -/
def sweepAct (s : State) : State :=
  if s.line.state = .sweep then
    match sweepBins (allBins.drop (s.presort.sweepPosition.getD 0)) s with
    | (s1, some k) => { s1 with presort.sweepPosition := some k }
    | (s1, none) => finishJob .ended .sweepDone { s1 with presort.sweepPosition := none }
  else s

/-- R138: the line enters SWEEP with the sweep position at B1. The runout target is kept until the job ends (R154). -/
def enterSweep (reason : Reason) (s : State) : State :=
  enterState .sweep reason { s with presort.sweepPosition := some 0 }

end Sys2Proof.Machine
end

