-- ==== Sys2Proof/Machine/Settle.lean ====
section
/-! DEFINITION. What each block starts of its own accord: its conditions are "tested again whenever any of them may have
changed" (R5, R83, R84, R90, R99, R106, R111, R123, R160, R164, R168). Each `…Act` is one block's test; `settle` makes
them all once, in path order, at the end of a command that may have changed a condition (log entries 4 and 5). -/

namespace Sys2Proof.Machine

/-! ### Purge (R57, R160) -/

/-- R57, R160: the line leaves PURGE for PROVING or RUNNING as P requires. -/
def purgeDone (s : State) : State :=
  if s.cfg.provingP = 0 then
    enterState .running .purgeDone
      { s with line.purgeHeldDone := false, mon.proving := .none, mon.provingGood := 0, mon.provingFault := 0 }
  else
    enterState .proving .purgeDone
      { s with line.purgeHeldDone := false, mon.proving := .active, mon.provingGood := 0, mon.provingFault := 0 }

/-- R101, R160: the purge is done when no pitch remains, or was done while the line was not in PURGE. -/
def purgeAct (s : State) : State :=
  if s.line.state = .purge && (s.track.purgePitches = 0 || s.line.purgeHeldDone) then purgeDone s else s

/-! ### The sheet gate (R83) -/

/-- R83: whether the gate can open for a held sheet. -/
def State.gateReady (s : State) : Bool := s.sets.accumulator.isNone && s.working

/-- R83: the gate opens for a held sheet. -/
def gateAct (s : State) : State :=
  match s.sets.gate with
  | .closed (some i) => if s.gateReady then { s with sets.gate := .passing i } else s
  | _ => s

/-! ### Releases (R84, R85) -/

/-- Whether the set in the accumulator carries a fault, read at the start of the release (R84). -/
def State.accumulatorFaulted (s : State) : Bool :=
  match s.setAt? s.sets.accumulator with
  | some r => r.faults != 0
  | none => false

/-- R85: the early divert bin is full: one BIN_CHANGE FULL. -/
def reportEarlyFull (s : State) : State :=
  if s.sets.earlyArmed then
    queueReport (.binChange .early .full none none (some s.sets.earlyCount) (some s.cfg.earlyCapacity) none)
      { s with sets.earlyArmed := false }
  else s

/-- R84, R85: a PENDING release starts when the line state allows it and its destination is free. -/
def releaseAct (s : State) : State :=
  if s.sets.release = .pending && s.working && s.sets.accumulator.isSome then
    if s.accumulatorFaulted then
      if s.sets.earlyCount < s.cfg.earlyCapacity then
        { s with sets.release := .early (s.timer s.cfg.releaseTime), sets.earlyArmed := true }
      else reportEarlyFull s
    else if s.sets.folder = .idle then { s with sets.release := .forward (s.timer s.cfg.releaseTime) }
    else s
  else s

/-! ### The folder (R89, R90) -/

/-- R89: the plates that must move for the folder's set, with their stops. -/
def State.plateMoves (s : State) : Option Nat × Option Nat :=
  match s.setAt? s.sets.folderSet with
  | some r =>
    (if r.stop1.isSome && r.stop1 != s.sets.plate1 then r.stop1 else none,
     if r.stop2.isSome && r.stop2 != s.sets.plate2 then r.stop2 else none)
  | none => (none, none)

/-- R89: whether a plate move is needed. -/
def State.moveNeeded (s : State) : Bool := s.plateMoves.1.isSome || s.plateMoves.2.isSome

/-- R89: the plate move starts. -/
def startMove (s : State) : State :=
  { s with sets.folder := .moving s.plateMoves.1 s.plateMoves.2 (s.timer s.cfg.moveTime) }

/-- R90: the fold starts. -/
def startFold (s : State) : State := { s with sets.folder := .folding (s.timer s.cfg.foldTime) }

/-- Whether a WAITING folder may start an operation. -/
def State.folderReady (s : State) : Bool := s.sets.folder = .waiting && s.sets.folderSet.isSome && s.working

/-- R89, R90: a WAITING folder moves its plates if they must move, and otherwise folds when the buffer is empty. -/
def folderAct (s : State) : State :=
  if s.folderReady then
    if s.moveNeeded then startMove s
    else if s.sets.buffer.isNone then startFold s
    else s
  else s

/-! ### Work at the track positions (R98, R106, R108, R111 to R114, R116) -/

/-- R98: whether the carrier at a station awaits a drop. -/
def State.awaitsDrop (s : State) (n : StationId) : Bool :=
  match s.setAt? (s.carrier (stationPosition n)) with
  | some r => r.faults = 0 && hasStation r.stationsNeeded n && !hasStation r.stationsDone n
  | none => false

/-- R98: whether the carrier at P8 awaits an envelope insert. -/
def State.awaitsInsert (s : State) : Bool :=
  match s.setAt? (s.carrier 8) with
  | some r => r.faults = 0 && !r.insertDone
  | none => false

/-- R98: whether the carrier at P10 awaits a scan. -/
def State.awaitsScan (s : State) : Bool :=
  match s.setAt? (s.carrier 10) with
  | some r => r.faults = 0 && r.scan.isNone
  | none => false

/-- R98: whether the carrier at P10 awaits a weighing. -/
def State.awaitsWeigh (s : State) : Bool :=
  match s.setAt? (s.carrier 10) with
  | some r => r.faults = 0 && s.cfg.scaleEnabled && r.measured.isNone
  | none => false

/-- R98: whether the carrier at P11 awaits a bin. -/
def State.awaitsBin (s : State) : Bool :=
  match s.setAt? (s.carrier 11) with
  | some r => r.faults = 0 && r.bin.isNone
  | none => false

/-- R106: a station acts on a carrier that awaits a drop; an EMPTY station's pause is handed back. -/
def dropAct (n : StationId) (s : State) : State × Option LineRequest :=
  if s.motion && s.awaitsDrop n then
    let st := s.station n
    match st.state with
    | .ready =>
      (putStation n { st with state := .dropping, drop := some (s.timer s.plant.stations[n].dropTimeout) } s, none)
    | .refilling | .dropping => (s, none)
    | .empty =>
      match s.line.state with
      | .proving | .running => (s, some (.pause (.stationEmpty n)))
      | .runout => (addFault? .stationOff (s.carrier (stationPosition n)) s, none)
      | _ => (s, none)
    | .off | .tripped => (addFault? .stationOff (s.carrier (stationPosition n)) s, none)
  else (s, none)

/-- R108: a due refill attempt starts while the line is in a motion state. -/
def refillAct (n : StationId) (s : State) : State :=
  let st := s.station n
  match st.seq with
  | .waiting k =>
    if s.motion then putStation n { st with seq := .running k (s.timer s.plant.stations[n].refillTimeout) } s else s
  | _ => s

/-- R111: the head acts on a carrier that awaits an envelope: an insert request from a STAGED pocket, or ENVELOPE_MISS
at once from an EMPTY one, whose trip is handed back. -/
def insertAct (s : State) : State × Option LineRequest :=
  if s.motion && s.awaitsInsert && s.track.head.insert.isNone then
    match s.track.head.pocket with
    | .staged => ({ s with track.head.insert := some (s.timer s.cfg.insertTime) }, none)
    | .refilling => (s, none)
    | .empty =>
      faultEvent .envelope .envelopeMiss ((s.setAt? (s.carrier 8)).bind SetRecord.piece)
        ((s.modSet? (s.carrier 8) fun r => { r with faults := addKind r.faults .envelopeMiss, insertDone := true }) |>
          fun s => { s with track.head.pocket := .refilling })
  else (s, none)

/-- R112: an envelope refill starts while the line is in a motion state and the pocket is REFILLING. No refill is due
while an insert is outstanding (the pocket is then STAGED). -/
def envelopeAct (s : State) : State :=
  if s.motion && s.track.head.pocket = .refilling && s.track.head.refill.isNone then
    { s with track.head.refill := some (s.timer s.cfg.envelopeRefillTime) }
  else s

/-- R113: a scan is requested. -/
def scanAct (s : State) : State :=
  if s.motion && s.awaitsScan && s.track.scan.isNone then { s with track.scan := some (s.timer s.cfg.scanTime) } else s

/-- R114: a weighing is requested. -/
def weighAct (s : State) : State :=
  if s.motion && s.awaitsWeigh && s.track.weigh.isNone then { s with track.weigh := some (s.timer s.cfg.weighTime) } else s

/-- R116, R129, R133: the carrier at P11 asks for a bin; a first answer BLOCKED queues SORT_BLOCKED. -/
def assignRequest (s : State) : State :=
  match s.carrier 11 with
  | none => s
  | some i =>
    match s.setAt i with
    | none => s
    | some r =>
      let s1 := { s with track.assignDue := false }
      match assignBin i r s1 with
      | (s2, true) => s2
      | (s2, false) =>
        if s2.track.sortReported then s2
        else
          queueReport (.sortBlocked r.piece (lookupGroup s.postal.scheme (r.record.bind PieceRecord.key)) residualBin)
            { s2 with track.sortReported := true }

/-- R116, R133: the request is made when one is due, in a motion state. -/
def assignAct (s : State) : State :=
  if s.motion && s.awaitsBin && s.track.assignDue then assignRequest s else s

/-- R100: a station's drop, with its request put after those of the positions before it. -/
def dropActs (p : State × List LineRequest) (n : StationId) : State × List LineRequest :=
  ((dropAct n p.1).1, p.2 ++ (dropAct n p.1).2.toList)

/-- R100 step 5: every position acts, from P1 on; the pauses and stops they ask for are handed back in that order. -/
def positionActs (s : State) : State × List LineRequest :=
  let p := allStations.foldl dropActs (allStations.foldl (fun s n => refillAct n s) s, [])
  let q := insertAct p.1
  (assignAct (weighAct (scanAct (envelopeAct q.1))), p.2 ++ q.2.toList)

/-- R100: Line Control takes what the positions asked for once every position has acted. -/
def positionsAct (s : State) : State := (positionActs s).2.foldl takeRequest (positionActs s).1

/-! ### Indexing (R99, R117, R119) -/

/-- R99: something to move. -/
def State.somethingToMove (s : State) : Bool :=
  s.sets.buffer.isSome || !s.carrierSets.isEmpty || (s.line.state = .purge && 0 < s.track.purgePitches)

/-- R99: no work awaited at P1 to P10, and no drop, envelope insert, scan or weighing outstanding. -/
def State.noWork (s : State) : Bool :=
  !(allStations.any fun n => s.awaitsDrop n || (s.station n).drop.isSome) &&
    !s.awaitsInsert && s.track.head.insert.isNone && !s.awaitsScan && s.track.scan.isNone &&
    !s.awaitsWeigh && s.track.weigh.isNone

/-- R99: P11 is ready. -/
def State.p11Ready (s : State) : Bool :=
  match s.setAt? (s.carrier 11) with
  | none => true
  | some r =>
    if r.bin.isSome then s.track.transport.isNone
    else r.faults != 0 && s.track.lateCount < s.cfg.lateCapacity

/-- R99: every condition but exit-clear. -/
def State.indexWanted (s : State) : Bool :=
  s.motion && s.somethingToMove && s.noWork && s.p11Ready && s.track.index.isNone

/-- R117: whether a faulted set waits at P11 for a full late divert bin. The rule names a count that equals the capacity; a count
left above the lower capacity of a later job is taken as full too (DESIGN CHOICE, log entry 35). -/
def State.lateWaiting (s : State) : Bool :=
  match s.setAt? (s.carrier 11) with
  | some r => r.faults != 0 && r.bin.isNone && s.motion && s.cfg.lateCapacity ≤ s.track.lateCount
  | none => false

/-- R117: one BIN_CHANGE FULL for the late divert bin. -/
def reportLateFull (s : State) : State :=
  if s.lateWaiting && s.track.lateArmed then
    queueReport (.binChange .late .full none none (some s.track.lateCount) (some s.cfg.lateCapacity) none)
      { s with track.lateArmed := false }
  else s

/-- R119: one EXIT_BLOCKED in a low period in which an index is held for exit-clear alone. -/
def reportExitBlocked (s : State) : State :=
  if s.track.exitArmed then
    queueReport (.exitBlocked (s.carrier 11) s.track.transport.isSome) { s with track.exitArmed := false }
  else s

/-- R99, R119: an index starts when every condition holds. -/
def startIndex (s : State) : State :=
  if s.indexWanted then
    if s.track.exitClear then { s with track.index := some (s.timer s.cfg.indexTime) } else reportExitBlocked s
  else s

/-- R99, R117, R119: the track's test for an index, with its two advisory reports. -/
def indexAct (s : State) : State := startIndex (reportLateFull s)

/-! ### Feeding (R5, R6) -/

/-- R5: the first feed condition not met, NONE when all hold. -/
def State.feedBlock (s : State) : FeedHold :=
  let starting := s.coll.state = .setStart || (s.coll.state = .hunt && s.coll.current.isNone)
  let lineOk := match s.line.state with
    | .proving | .running => s.coll.state != .idle
    | .runout => s.coll.state == .inSet
    | _ => false
  if !lineOk then .line
  else if s.coll.transit != .none then .sheet
  else if starting && s.sets.accumulator.isSome then .accumulator
  else if !(s.setsInFlight + 1 ≤ Config.poolSize) then .records
  else if !s.reserve then .reserve
  else if (s.coll.state = .setStart || s.coll.state = .hunt) && s.reg.queue.isEmpty then .queue
  else .none

/-- R5, R6: the feed is requested when every condition holds; a feed held for QUEUE alone is reported once. -/
def feedAct (s : State) : State :=
  match s.feedBlock with
  | .none =>
    { s with coll.transit := .feeding none [] (s.timer s.cfg.feedTime), coll.starvationArmed := true }
  | .queue =>
    if s.coll.starvationArmed then
      queueReport (.queueStarved s.reg.base s.setsInFlight) { s with coll.starvationArmed := false }
    else s
  | _ => s

/-- R5: the feed hold shown: NONE while a feed is outstanding. -/
def refreshHold (s : State) : State :=
  { s with coll.feedHold := if s.feeding then .none else s.feedBlock }

/-! ### Rest and runout (R164, R168) -/

/-- R164: the pending pause holds the sections not at rest, and when it is empty the line enters PAUSED. -/
def pauseAct (s : State) : State :=
  if s.line.state = .pausing then
    if s.notAtRest = noSections then enterState .paused .pauseDone { s with line.pendingPause := noSections }
    else { s with line.pendingPause := s.notAtRest }
  else s

/-- R21: feeding has ended. -/
def State.feedingEnded (s : State) : Bool :=
  (s.coll.state == .setStart || s.coll.state == .hunt) && !s.feeding && s.coll.current.isNone

/-- R96: the Set Handler's section is empty. -/
def State.setSectionEmpty (s : State) : Bool :=
  s.sets.accumulator.isNone && s.sets.folderSet.isNone && s.sets.buffer.isNone && !s.releasing &&
    s.sets.gate == .closed none

/-- R123: the Track Controller's section is empty. -/
def State.trackSectionEmpty (s : State) : Bool :=
  s.carrierSets.isEmpty && s.track.transport.isNone && s.track.index.isNone

/-- R168: the runout is complete. -/
def State.runoutComplete (s : State) : Bool := s.feedingEnded && s.setSectionEmpty && s.trackSectionEmpty

/-- R168: a complete runout goes to its target. -/
def runoutAct (s : State) : State :=
  if s.line.state = .runout && s.runoutComplete then
    if s.line.runoutTarget = .sweep then enterSweep .runoutDone s
    else enterState .jobIdle .runoutDone { s with line.runoutTarget := .none }
  else s

/-! ### All tests -/

/-- The items that follow the state: the jam timers and the feed hold. -/
def refresh (s : State) : State := refreshHold (watchZones s)

/-- Every block's test once, in path order, and then Line Control's. -/
def settle (s : State) : State :=
  let s := folderAct (releaseAct (gateAct (purgeAct s)))
  let s := feedAct (indexAct (positionsAct s))
  refresh (sweepAct (runoutAct (pauseAct s)))

/-- The end of a command: the zones that left motion cancel their jam timers, and every block tests its conditions. -/
def react (s : State) : State := settle (watchZones s)

end Sys2Proof.Machine
end

