-- ==== Sys2Proof/Machine/Collate.lean ====
section
/-! DEFINITION. The Collation Unit's operations: the reads of one sheet, the decision of a sheet, the events it gives to the
READ monitor, and the handing over to the Set Handler (chapter 1, R83). -/

namespace Sys2Proof.Machine

/-! ### Reads of one sheet (R1 to R3) -/

/-- R1: a GOOD read kept, collapsed into one already kept, or dropped when four are held. -/
def keepRead (mask : Mask) (reads : List Mark) (m : Mark) : List Mark :=
  if reads.any (marksAgree mask m) then reads
  else if reads.length < Config.maxReads then reads ++ [m]
  else reads

/-- The compare mask of the open job. -/
def State.compareMask (s : State) : Mask := (s.reg.job.map Job.mask).getD 0

/-- The code of the open job. -/
def State.jobCode (s : State) : Nat := (s.reg.job.map Job.code).getD 0

/-- R1: whether a reader record with a tag belongs to the sheet in transit, the tag fixed if any. A record with the
closed tag does not fix it. -/
def State.takesTag (s : State) (fixed : Option Byte) (tag : Byte) : Bool :=
  match fixed with
  | some t => t == tag
  | none => s.coll.closedTag != some tag

/-- R1, R2: a READ record taken while a feed is outstanding. -/
def takeRead (tag : Byte) (mark : Option RawMark) (s : State) : State :=
  match s.coll.transit with
  | .feeding fixed reads timer =>
    if s.coll.state != .idle && s.takesTag fixed tag then
      let kept := match mark.bind markOfRaw with
        | some m => keepRead s.compareMask reads m
        | none => reads
      { s with coll.transit := .feeding (some tag) kept timer }
    else s
  | _ => s

/-- A sheet to be decided (R3): its mark, none when UNREADABLE, and whether its reads conflict. -/
structure Sheet where
  mark : Option Mark
  conflict : Bool
  deriving DecidableEq, Repr

/-- R3: the reads held for a sheet combined. -/
def combineReads (reads : List Mark) : Sheet := { mark := reads.head?, conflict := 2 ≤ reads.length }

/-! ### Decisions (R9 to R17) -/

/-- What a decision made of a sheet: the set or bundle that receives it, whether it closed that set, and what the READ
monitor is told of it. -/
structure Decision where
  slot : Option Slot
  closes : Bool
  gap : Bool
  hunt : Bool
  deriving DecidableEq, Repr

/-- R10: the wrap check at a set start: whether there is a gap. -/
def State.wrapGap (s : State) (m : Mark) : Bool :=
  match s.coll.expectedWrap with
  | some e => e != m.wrap
  | none => false

/-- R10: the SHEET_GAP report of a gap. -/
def reportGap (m : Mark) (s : State) : State :=
  match s.coll.expectedWrap with
  | some e => if e = m.wrap then s else queueReport (.sheetGap ((m.wrap + 8 - e) % 8) s.coll.lastMark m.piece m.index) s
  | none => s

/-- R46: a set or bundle counted as started. -/
def countStarted (s : State) : State := { s with reg.counters.started := countUp s.reg.counters.started 1 }

/-- R12: the start faults of a set from its answer, its mark and its governing count. -/
def State.startFaults (s : State) (answer : MatchAnswer) (m : Mark) (conflict : Bool) (g : Nat) : FaultSet :=
  let own : FaultSet := match answer with
    | .matched r => addKindIf r.pull .hostPull (addKindIf (r.sheets != m.count) .countMismatch 0)
    | .unknownPiece => faultMask .unknownPiece
    | .duplicatePiece => faultMask .duplicatePiece
  addKindIf conflict .markConflict
    (addKindIf (s.reg.filter.excludes m.piece) .rangeExcluded (addKindIf (Config.maxSheets < g) .longSet own))

/-- The record that an answer matched. -/
def MatchAnswer.record : MatchAnswer → Option PieceRecord
  | .matched r => some r
  | _ => none

/-- R12: the governing count. -/
def MatchAnswer.governing (m : Mark) : MatchAnswer → Nat
  | .matched r => r.sheets
  | _ => m.count

/-- R14: the closing index of a governing count. -/
def closingIndex (g : Nat) : Nat := min g Config.maxSheets

/-- R12: a new set starts with a sheet. The pool has a free record for it (R5 condition 4); with none free, a state no
run reaches, no set starts (log entry 20). -/
def startSet (m : Mark) (conflict : Bool) (s : State) : Decision × State :=
  let gap := s.wrapGap m
  let s1 := reportGap m s
  match s1.freeSlot with
  | none => ({ slot := none, closes := false, gap, hunt := false }, s1)
  | some i =>
    let s2 := s1.putSet i (some { blankSet with piece := some m.piece, provingStart := s.line.state == .proving })
    let a := (matchPiece m.piece s2).1
    let s3 := (matchPiece m.piece s2).2
    let g := a.governing m
    let s4 := s3.modSet i fun r =>
      { r with record := a.record, governing := g, lastIndex := some m.index, lastWrap := some m.wrap
               faults := s3.startFaults a m conflict g }
    let closes := closingIndex g ≤ 1
    let s5 := { s4 with coll.state := if closes then .setStart else .inSet
                        coll.current := if closes then none else some i
                        coll.expectedIndex := 2 }
    ({ slot := some i, closes, gap, hunt := false }, countStarted s5)

/-- R14: whether a set closes when the index taken is `index` and `decided` sheets have been decided into it. -/
def setCloses (g index decided : Nat) : Bool := closingIndex g ≤ index || Config.maxSheets ≤ decided

/-- R13, R14: a sheet accepted into the current set: its faults, the index taken for it, and the closing test. -/
def acceptSheet (i : Slot) (r : SetRecord) (sheet : Sheet) (s : State) : Decision × State :=
  let k := s.coll.expectedIndex
  let index := match sheet.mark with
    | some m => m.index
    | none => k
  let disorder := match sheet.mark with
    | some m => m.index != k || some m.wrap != s.coll.expectedWrap
    | none => false
  let closes := setCloses r.governing index (r.received + 1)
  let long := closes && index < closingIndex r.governing
  let s1 := s.modSet i fun r =>
    { r with
      lastIndex := match sheet.mark with | some m => some m.index | none => r.lastIndex
      lastWrap := match sheet.mark with | some m => some m.wrap | none => r.lastWrap
      faults := addKindIf long .longSet <| addKindIf sheet.conflict .markConflict <|
        addKindIf disorder .sheetOrder <| addKindIf sheet.mark.isNone .unreadable r.faults }
  ({ slot := some i, closes, gap := false, hunt := false },
    { s1 with coll.state := if closes then .setStart else .inSet
              coll.current := if closes then none else some i
              coll.expectedIndex := index + 1 })

/-- R16: a sheet counted as a hunt sheet; the count returns to 0 at the hunt count H. -/
def countHunt (s : State) : Bool × State :=
  if s.cfg.huntCount ≤ s.coll.huntCount + 1 then (true, { s with coll.huntCount := 0 })
  else (false, { s with coll.huntCount := s.coll.huntCount + 1 })

/-- R16: the faults that a sheet brings to a bundle. -/
def bundleFaults (sheet : Sheet) (f : FaultSet) : FaultSet :=
  addKindIf sheet.conflict .markConflict (addKindIf sheet.mark.isNone .unreadable f)

/-- R11, R16, R21: a sheet opens a new bundle and is its first sheet. In RUNOUT the bundle is closed at once to further
sheets and HUNT is left again. -/
def openBundle (sheet : Sheet) (s : State) : Decision × State :=
  match s.freeSlot with
  | none => ({ slot := none, closes := false, gap := false, hunt := false }, s)
  | some i =>
    let s1 := s.putSet i (some { blankSet with governing := Config.maxSheets, provingStart := s.line.state == .proving
                                               faults := bundleFaults sheet (faultMask .unattributed) })
    let h := countHunt (countStarted s1)
    if s.line.state = .runout then
      ({ slot := some i, closes := true, gap := false, hunt := h.1 },
        { h.2 with coll.state := .setStart, coll.current := none, coll.huntCount := 0 })
    else
      ({ slot := some i, closes := false, gap := false, hunt := h.1 },
        { h.2 with coll.state := .hunt, coll.current := some i })

/-- R11: HUNT entered with the hunt sheet count 0, from SET_START or IN_SET. -/
def enterHunt (sheet : Sheet) (s : State) : Decision × State := openBundle sheet { s with coll.huntCount := 0 }

/-- R16, R17: a sheet joins the open bundle; the 24th closes it, and HUNT goes on with no bundle open. -/
def joinBundle (i : Slot) (r : SetRecord) (sheet : Sheet) (s : State) : Decision × State :=
  let closes := Config.maxSheets ≤ r.received + 1
  let h := countHunt (s.modSet i fun r => { r with faults := bundleFaults sheet r.faults })
  ({ slot := some i, closes, gap := false, hunt := h.1 },
    { h.2 with coll.current := if closes then none else some i })

/-- R11, R12: a sheet that gets SET_START handling. -/
def decideStart (sheet : Sheet) (s : State) : Decision × State :=
  match sheet.mark with
  | some m => if m.job = s.jobCode ∧ m.index = 1 then startSet m sheet.conflict s else enterHunt sheet s
  | none => enterHunt sheet s

/-- R15: the current set closed short; all its sheets are in, and it completes at once. -/
def closeShort (i : Slot) (s : State) : State :=
  completeSet i (addFault .shortSet i { s with coll.state := .setStart, coll.current := none })

/-- R13: whether a sheet is accepted into the current set: an UNREADABLE one, or one of the same piece. -/
def State.samePiece (s : State) (r : SetRecord) (sheet : Sheet) : Bool :=
  match sheet.mark with
  | some m => m.job == s.jobCode && r.piece == some m.piece
  | none => true

/-- R13: the decision in IN_SET. -/
def decideInSet (i : Slot) (r : SetRecord) (sheet : Sheet) (s : State) : Decision × State :=
  if s.samePiece r sheet then acceptSheet i r sheet s else decideStart sheet (closeShort i s)

/-- R16, R17: the open bundle closed by a sheet that starts a set; it completes at once, and HUNT is left. -/
def endBundle (s : State) : State :=
  let s1 := { s with coll.state := .setStart, coll.current := none, coll.huntCount := 0 }
  match s.coll.current with
  | some i => completeSet i s1
  | none => s1

/-- Whether a sheet can start a set: GOOD, the job's code, index 1. -/
def State.canStart (s : State) (sheet : Sheet) : Bool :=
  match sheet.mark with
  | some m => m.job == s.jobCode && m.index == 1
  | none => false

/-- R16: the decision in HUNT. -/
def decideHunt (sheet : Sheet) (s : State) : Decision × State :=
  if s.canStart sheet then decideStart sheet (endBundle s)
  else
    match s.coll.current with
    | some i =>
      match s.setAt i with
      | some r => joinBundle i r sheet s
      | none => openBundle sheet s
    | none => openBundle sheet s

/-- R3, section 1.4: the decision of a sheet, made against the collation state that holds. -/
def decideSheet (sheet : Sheet) (s : State) : Decision × State :=
  match s.coll.state with
  | .idle => ({ slot := none, closes := false, gap := false, hunt := false }, s)
  | .setStart => decideStart sheet s
  | .inSet =>
    match s.coll.current with
    | some i =>
      match s.setAt i with
      | some r => decideInSet i r sheet s
      | none => decideStart sheet s
    | none => decideStart sheet s
  | .hunt => decideHunt sheet s

/-- R9: the expected wrap and the last accepted mark after a decision. -/
def updateWrap (sheet : Sheet) (s : State) : State :=
  match sheet.mark with
  | some m => { s with coll.expectedWrap := some ((m.wrap + 1) % 8), coll.lastMark := some (m.piece, m.index) }
  | none => { s with coll.expectedWrap := s.coll.expectedWrap.map fun e => (e + 1) % 8 }

/-! ### Handing over (R8, R83) -/

/-- R83: whether the gate opens at once for a sheet of a set that is handed over. -/
def State.gateOpensFor (s : State) (i : Slot) : Bool :=
  (s.sets.accumulator.isNone || s.sets.accumulator == some i) &&
    (s.line.state == .proving || s.line.state == .running || s.line.state == .runout || s.line.state == .pausing)

/-- R8, R83: a decided sheet handed to the Set Handler. -/
def handOver (i : Slot) (closes : Bool) (s : State) : State :=
  { s with coll.transit := .decided i closes
           sets.gate := if s.gateOpensFor i then .passing i else .closed (some i) }

/-- The sheet of a decision handed over, if a set received it. -/
def handOverDecision (d : Decision) (s : State) : State :=
  match d.slot with
  | some i => handOver i d.closes s
  | none => { s with coll.transit := .none }

/-! ### Events of the READ monitor (R18) -/

/-- R55: the piece number a trip of the READ monitor names: that of the set that received the sheet. -/
def State.decidedPiece (s : State) (d : Decision) : Option Nat := (s.setAt? d.slot).bind SetRecord.piece

/-- R18: the fault events of a sheet, in order, each with its cause and piece. A gap's event comes before the event of
the sheet itself (log entry 9), and a hunt sheet's comes last. -/
def readFaults (sheet : Sheet) (d : Decision) (piece : Option Nat) : List (TripCause × Option Nat) :=
  (if d.gap then [(.wrapGap, piece)] else []) ++
    (if sheet.mark.isNone then [(.unreadable, piece)] else if sheet.conflict then [(.markConflict, piece)] else []) ++
    (if d.hunt then [(.hunt, none)] else [])

/-- R18: whether a sheet gives a good event. -/
def readGood (sheet : Sheet) (d : Decision) : Bool := sheet.mark.isSome && !sheet.conflict && !d.hunt

/-- R18: the events of a sheet given to the READ monitor. -/
def giveReadEvents (sheet : Sheet) (d : Decision) (s : State) : State :=
  let s1 := (readFaults sheet d (s.decidedPiece d)).foldl (fun s e => monitorFault .read e.1 e.2 s) s
  if readGood sheet d then monitorGood .read s1 else s1

/-- R3, R7, R8, R18: the SHEET_END record of the sheet in transit: the feed ends, and the sheet is decided, handed over and
told to the READ monitor. -/
def endSheet (tag : Byte) (reads : List Mark) (s : State) : State :=
  let sheet := combineReads reads
  let d := (decideSheet sheet { s with coll.transit := .none, coll.closedTag := some tag }).1
  let s1 := (decideSheet sheet { s with coll.transit := .none, coll.closedTag := some tag }).2
  giveReadEvents sheet d (handOverDecision d (updateWrap sheet s1))

/-- R1, R3: a SHEET_END record taken; one that does not belong to the sheet in transit is ignored. -/
def takeSheetEnd (tag : Byte) (s : State) : State :=
  match s.coll.transit with
  | .feeding fixed reads _ => if s.coll.state != .idle && s.takesTag fixed tag then endSheet tag reads s else s
  | _ => s

/-! ### The end of a feed without a sheet (R7) -/

/-- R7: the feed timeout of an outstanding feed. -/
def feedExpired (tag : Option Byte) (s : State) : State :=
  let s1 := { s with coll.transit := .none, coll.closedTag := if tag.isSome then tag else s.coll.closedTag }
  match s.line.state with
  | .proving | .running => pauseLine .feederEmpty s1
  | .runout =>
    match s.coll.state, s.coll.current with
    | .inSet, some i => closeShort i s1
    | _, _ => s1
  | _ => s1

/-! ### The sheet-in event (R83) -/

/-- R8, R83: a sheet of a set enters the accumulator; the sheet that closed the set completes it. -/
def sheetEnters (i : Slot) (s : State) : State :=
  let closes := match s.coll.transit with
    | .decided j c => j == i && c
    | _ => false
  let s1 := { s.modSet i (fun r => { r with received := r.received + 1 }) with
    sets.gate := .closed none
    sets.accumulator := some (s.sets.accumulator.getD i)
    coll.transit := match s.coll.transit with
      | .decided j c => if j = i then .none else .decided j c
      | t => t }
  if closes then completeSet i s1 else s1

end Sys2Proof.Machine
end

