-- ==== Sys2Proof/Machine/CollationCommands.lean ====
section
/-! DEFINITION. The meanings of the mark reader's and the feeder's rows (chapter 1), and of the sheet gate's (R83). -/

namespace Sys2Proof.Machine

/-- READ_RECORD (R1, R2). -/
def execReadRecord (tag : Byte) (mark : Option RawMark) (s : State) : Host.Outcome State Fault Refusal :=
  .next (react (takeRead tag mark s))

/-- SHEET_END (R3, R8 to R18). -/
def execSheetEnd (tag : Byte) (s : State) : Host.Outcome State Fault Refusal :=
  .next (react (takeSheetEnd tag s))

/-- FEED_REQUEST (R5, R6): the Collation Unit tests the feed conditions, and requests a feed when all of them hold. -/
def execFeedRequest (s : State) : Host.Outcome State Fault Refusal :=
  .next (refresh (feedAct s))

/-- FEED_TIMEOUT (R7), ignored while no feed is outstanding. -/
def execFeedTimeout (s : State) : Host.Outcome State Fault Refusal :=
  .next <| react <|
    match s.coll.transit with
    | .feeding tag _ _ => feedExpired tag s
    | _ => s

/-- SHEET_GATE_OPEN (R83): the Set Handler tests the gate for a held sheet. -/
def execSheetGateOpen (s : State) : Host.Outcome State Fault Refusal :=
  .next (refresh (gateAct s))

/-- SHEET_IN (R83), ignored while the gate stands CLOSED. -/
def execSheetIn (s : State) : Host.Outcome State Fault Refusal :=
  .next <| react <|
    match s.sets.gate with
    | .passing i => sheetEnters i s
    | .closed _ => s

end Sys2Proof.Machine
end

