-- ==== Sys2Proof/Machine/Requests.lean ====
section
/-! DEFINITION. How a request is taken and answered: the held request, the overrun, the body length and the reply (R187,
R188), and the codings that replies share. -/

namespace Sys2Proof.Machine

/-- What a block makes of a request: its reply and the state after it. -/
structure Answer where
  reply : Reply
  state : State
  restart : Bool
  deriving DecidableEq, Repr

/-- A reply with fields. -/
def Answer.mk' (result : Result) (fields : List Byte) (s : State) : Answer :=
  { reply := { result, fields }, state := s, restart := false }

/-- A reply of the result code alone. -/
def Answer.code (result : Result) (s : State) : Answer := Answer.mk' result [] s

/-- R187: a request is held from its arrival until the last byte of its reply has left. -/
def holdReply (tag type : Byte) (reply : Reply) (restart : Bool) (s : State) : State :=
  { s with link.held := some { tag, type, reply, restart } }

/-- R187: a frame that completes while a request is held is discarded, with LINK_ERROR OVERRUN. -/
def overrunFrame (tag type : Byte) (s : State) : State :=
  queueReport (.linkError .overrun (some tag) (some type)) s

/-- R187, R188: a complete request frame: an overrun, a body of a length not allowed, or a request handed to its block. -/
def takeFrame (type tag : Byte) (body : List Byte) (handler : List Byte → State → Answer) (s : State) : State :=
  match s.link.held with
  | some _ => overrunFrame tag type s
  | none =>
    if bodyLengthOk type body.length then
      let a := handler body s
      holdReply tag type a.reply a.restart a.state
    else holdReply tag type { result := .badLength, fields := [] } false s

/-- An absent byte. -/
def absent1 : List Byte := absentBytes 1

/-- A slot, or absent (11.6). -/
def slotByte (i : Option Slot) : List Byte := optBytes 1 (i.map Fin.val)

/-- A byte of a body. -/
def byteAt (b : List Byte) (i : Nat) : Byte := b.getD i 0

end Sys2Proof.Machine
end

