-- ==== Sys2Proof/Machine/SortCommands.lean ====
section
/-! DEFINITION. The meanings of the rows past the track: assignment, delivery, the bins' clears, the exit-clear input and the
jam sensors (R116 to R120, R129 to R135). -/

namespace Sys2Proof.Machine

/-- BIN_ASSIGNMENT (R116, R129): the carrier at P11 that awaits a bin asks for one, in a motion state. -/
def execBinAssignment (s : State) : Host.Outcome State Fault Refusal :=
  .next (react (if s.motion && s.awaitsBin then assignRequest s else s))

/-! ### Delivery (R118) -/

/-- R118: the PIECE_DELIVERED report of a set. -/
def deliveredReport (r : SetRecord) (unconfirmed : Bool) : Report :=
  .pieceDelivered r.piece r.tray r.bin r.postageWeight r.step r.marginal (hasKind r.faults .disturbed) unconfirmed

/-- R118, R121: the piece in the transport is delivered: the report, the landing, the Piece Register, and the transport
empty. -/
def deliverPiece (i : Slot) (r : SetRecord) (unconfirmed : Bool) (s : State) : State :=
  let s1 := queueReport (deliveredReport r unconfirmed) { s with track.delivery := none }
  let s2 := match r.bin with
    | some b => landPiece b s1
    | none => s1
  { deliverSet i unconfirmed s2 with track.transport := none }

/-- R118: the bin entry sensor names a bin. -/
def binEntered (b : BinId) (s : State) : State :=
  match s.track.transport with
  | some i =>
    match s.setAt i with
    | some r => if r.bin = some b then deliverPiece i r false s else s
    | none => s
  | none => s

/-- BIN_ENTRY (R118), ignored while no delivery is outstanding and for another bin than the piece's. -/
def execBinEntry (bin : Byte) (s : State) : Host.Outcome State Fault Refusal :=
  .next <| react <|
    match s.track.delivery, binOfCode bin with
    | some _, some b => binEntered b s
    | _, _ => s

/-- DELIVERY_TIMEOUT (R118, R122). -/
def execDeliveryTimeout (s : State) : Host.Outcome State Fault Refusal :=
  .next <| react <| if s.track.delivery.isSome then faultStop .deliveryTimeout s else s

/-! ### Clears (R117, R134) -/

/-- R117: the late divert bin has been emptied. -/
def clearLateBin (s : State) : State :=
  queueReport (.binChange .late .cleared none none (some s.track.lateCount) none none)
    { s with track.lateCount := 0, track.lateArmed := true }

/-- LATE_BIN_CLEAR (R117). -/
def execLateBinClear (s : State) : Host.Outcome State Fault Refusal :=
  .next (react (clearLateBin s))

/-- R134: the outcome of a bin's clear in the bin. -/
def clearBin (b : BinId) (s : State) : State :=
  match (s.bin b).state with
  | .swap =>
    if (s.bin b).onWay = 0 then
      queueReport (.binChange (.sort b) .free (s.bin b).lastTray none none none none)
        (putBin b { s.bin b with state := .free } s)
    else queueReport (.binChange (.sort b) .ignored (s.bin b).lastTray none none none none) s
  | .free | .open _ => s

/-- SORT_BIN_CLEAR (R134); after it the Track Controller asks again for a held carrier (R133). A bin outside B1 to B10 and
BR is ignored. -/
def execSortBinClear (bin : Byte) (s : State) : Host.Outcome State Fault Refusal :=
  .next <| react <|
    match binOfCode bin with
    | some b => clearBin b { s with track.assignDue := true }
    | none => s

/-! ### Exit-clear (R119) -/

/-- R119: the exit-clear input's new level; high arms the report again. -/
def exitClearTaken (high : Bool) (s : State) : State :=
  { s with track.exitClear := high, track.exitArmed := high || s.track.exitArmed }

/-- EXIT_CLEAR_CHANGE (R119). -/
def execExitClearChange (high : Bool) (s : State) : Host.Outcome State Fault Refusal :=
  .next (react (exitClearTaken high s))

/-! ### Jam sensors (R120) -/

/-- The zone of a code. -/
def zoneAt (z : Fin 4) : Zone :=
  match z.val with
  | 0 => .feed
  | 1 => .fold
  | 2 => .track
  | _ => .sort

/-- A zone written. -/
def putZone (z : Fin 4) (x : JamZone) (s : State) : State :=
  { s with track.zones := s.track.zones.set z.val x z.isLt }

/-- R120: a zone after a sensor's event: a sensor that becomes blocked in motion starts its timer; a clear cancels it and
clears the zone that this sensor jammed. -/
def sensorTaken (motion : Bool) (start : Timer) (k : Fin 4) (blocked : Bool) (x : JamZone) : JamZone :=
  if blocked then
    if x.sensors[k].blocked then x
    else { x with sensors := x.sensors.set k.val { blocked := true, timer := if motion then some start else none } k.isLt }
  else
    { x with sensors := x.sensors.set k.val { blocked := false, timer := none } k.isLt
             jammed := if x.jammed = some k then none else x.jammed }

/-- JAM_SENSOR (R120); a zone or sensor outside the four is ignored. -/
def execJamSensor (zone sensor : Byte) (blocked : Bool) (s : State) : Host.Outcome State Fault Refusal :=
  .next <| react <|
    match zoneOfCode zone, sensorOfCode sensor with
    | some z, some k =>
      putZone z (sensorTaken (s.zoneMotion z) (s.timer (s.cfg.jamTime z)) k blocked s.track.zones[z]) s
    | _, _ => s

/-- R120: a zone becomes JAMMED with a sensor. -/
def jamZone (k : Fin 4) (x : JamZone) : JamZone :=
  { x with jammed := some k, sensors := x.sensors.set k.val { x.sensors[k] with timer := none } k.isLt }

/-- R120: a jam timer that runs expires. -/
def jamExpired (z k : Fin 4) (s : State) : State :=
  if s.track.zones[z].sensors[k].timer.isSome then
    faultStop (.jam (zoneAt z) k) (putZone z (jamZone k s.track.zones[z]) s)
  else s

/-- JAM_TIMER_EXPIRY (R120), of a timer that runs. -/
def execJamTimerExpiry (zone sensor : Byte) (s : State) : Host.Outcome State Fault Refusal :=
  .next <| react <|
    match zoneOfCode zone, sensorOfCode sensor with
    | some z, some k => jamExpired z k s
    | _, _ => s

end Sys2Proof.Machine
end

