-- ==== Sys2Proof/Machine/JobCommands.lean ====
section
/-! DEFINITION. The meanings of the rows of Line Control: the job and line requests, station control, the keyswitch and the
guard interlock (chapter 9, R109). -/

namespace Sys2Proof.Machine

/-! ### Refills begun by a request (R104, R108, R109) -/

/-- A station becomes REFILLING with a new refill sequence WAITING. -/
def startRefill (n : StationId) (cause : StationCause) (s : State) : State :=
  let s1 := changeStation n .refilling cause s
  putStation n { s1.station n with seq := .waiting 1 } s1

/-- R104: a station at OpenJob and at StartLine. -/
def jobRefill (s : State) (n : StationId) : State :=
  let st := (s.station n).state
  if (st = .off ∧ s.plant.stations[n].enabled) ∨ st = .empty then startRefill n .job s else s

/-- R104: every station at OpenJob and at StartLine, from S1 to S6, in which order their STATION_CHANGE reports are queued (R158 gives
none: DESIGN CHOICE, log entry 27). -/
def jobRefills (s : State) : State := allStations.foldl jobRefill s

/-- R108: a station at Resume. -/
def resumeRefill (s : State) (n : StationId) : State :=
  if (s.station n).state = .empty then startRefill n .resume s else s

/-- R108: every EMPTY station at Resume, or at StopLine or EndJob from PAUSING and PAUSED (R166, log entry 14), from S1 to S6, in which
order their STATION_CHANGE reports are queued (DESIGN CHOICE, log entry 27). -/
def resumeRefills (s : State) : State := allStations.foldl resumeRefill s

/-! ### OpenJob (R158) -/

/-- R47: the Piece Register at OpenJob. -/
def Register.atOpen (r : Register) (j : Job) : Register :=
  { Register.reset with base := j.first, filter := r.filter, job := some j }

/-- R111: the pocket at OpenJob. -/
def Pocket.atOpen : Pocket → Pocket
  | .empty => .refilling
  | p => p

/-- R158: every block at OpenJob but the stations. -/
def openBlocks (j : Job) (s : State) : State :=
  { s with
    reg := s.reg.atOpen j
    coll := { Collation.reset with state := .setStart }
    mon := MonitorBank.reset
    track.head.pocket := s.track.head.pocket.atOpen
    presort.nextTray := some 1
    postage := { s.postage with direct := .zero, area := .zero, mixed := .zero, closedPieces := 0, withdrawnAfter := 0 }
    line.returnState := none, line.origin := none, line.stopReason := none, line.runoutTarget := .none
    line.purgeHeldDone := false }

/-- R158: a job opens. -/
def openTheJob (j : Job) (s : State) : State :=
  enterState .jobIdle .openJob (jobRefills (openBlocks j s))

/-- R158: the checks of OpenJob in their order: the refusal, or the job. -/
def State.openCheck (s : State) (body : List Byte) : Except Result Job :=
  if s.line.state ≠ .ready then .error .wrongState
  else if s.line.interlock = .opened then .error .wrongState
  else
    match parseJob s.cfg body, lastBound s.postal.steps with
    | none, _ => .error .badValue
    | some _, none => .error .wrongState
    | some j, some bound => if s.cfg.trayWeight ≤ bound then .error .badValue else .ok j

/-- R158: OpenJob; a refusal gives the job code and the base as absent. -/
def openJobBody (body : List Byte) (s : State) : Answer :=
  match s.openCheck body with
  | .error r => .mk' r (absentBytes 2 ++ toBytes 3 0) s
  | .ok j => .mk' .ok (toBytes 2 j.code ++ toBytes 3 j.first) (react (openTheJob j s))

/-- OPEN_JOB (R158). -/
def execOpenJob (tag : Byte) (body : List Byte) (s : State) : Host.Outcome State Fault Refusal :=
  .next (takeFrame 0x20 tag body openJobBody s)

/-! ### StartLine (R159) -/

/-- R159: whether a jam zone stands JAMMED. -/
def State.jammed (s : State) : Bool := s.track.zones.toList.any fun z => z.jammed.isSome

/-- R159: the line starts. -/
def startTheLine (s : State) : State :=
  let s1 := jobRefills s
  enterState .purge .host { s1 with track.purgePitches := s.cfg.purgeCount, line.purgeHeldDone := false }

/-- R159: StartLine. -/
def startLineBody (_body : List Byte) (s : State) : Answer :=
  if s.line.state = .jobIdle ∧ s.line.key = .run ∧ !s.jammed then .code .ok (react (startTheLine s))
  else .code .wrongState s

/-- START_LINE (R159). -/
def execStartLine (tag : Byte) (body : List Byte) (s : State) : Host.Outcome State Fault Refusal :=
  .next (takeFrame 0x22 tag body startLineBody s)

/-! ### Pause and Resume (R162, R165) -/

/-- R162: Pause. -/
def pauseBody (_body : List Byte) (s : State) : Answer :=
  match s.line.state with
  | .purge | .proving | .running => .code .ok (react (pauseLine .host s))
  | .pausing | .paused => .code .ok s
  | _ => .code .wrongState s

/-- PAUSE (R162). -/
def execPause (tag : Byte) (body : List Byte) (s : State) : Host.Outcome State Fault Refusal :=
  .next (takeFrame 0x23 tag body pauseBody s)

/-- R165: the line resumes into its return state. -/
def resumeInto (r : LineState) (s : State) : State :=
  resumeRefills (enterState r .host { s with line.returnState := none })

/-- R165: Resume. A PAUSED line always holds a return state. -/
def resumeBody (_body : List Byte) (s : State) : Answer :=
  match s.line.state, s.line.key, s.line.returnState with
  | .paused, .run, some r => .code .ok (react (resumeInto r s))
  | _, _, _ => .code .wrongState s

/-- RESUME (R165). -/
def execResume (tag : Byte) (body : List Byte) (s : State) : Host.Outcome State Fault Refusal :=
  .next (takeFrame 0x24 tag body resumeBody s)

/-! ### StopLine and EndJob (R166, R167) -/

/-- R166: the line goes to RUNOUT with a target: active proving is abandoned, and a line that was at rest refills its
EMPTY stations. -/
def stopInto (target : RunoutTarget) (s : State) : State :=
  let s1 := enterRunout target .host (abandonProving s)
  match s.line.state with
  | .pausing | .paused => resumeRefills s1
  | _ => s1

/-- R166: StopLine. -/
def stopLineBody (_body : List Byte) (s : State) : Answer :=
  match s.line.state, s.line.key with
  | .runout, _ => .code .ok s
  | .purge, _ | .proving, _ | .running, _ => .code .ok (react (stopInto .jobIdle s))
  | .pausing, .run | .paused, .run => .code .ok (react (stopInto .jobIdle s))
  | _, _ => .code .wrongState s

/-- STOP_LINE (R166). -/
def execStopLine (tag : Byte) (body : List Byte) (s : State) : Host.Outcome State Fault Refusal :=
  .next (takeFrame 0x25 tag body stopLineBody s)

/-- R167: EndJob. -/
def endJobBody (_body : List Byte) (s : State) : Answer :=
  match s.line.state, s.line.key with
  | .jobIdle, _ => .code .ok (react (enterSweep .host s))
  | .runout, _ => .code .ok (react { s with line.runoutTarget := .sweep })
  | .purge, _ | .proving, _ | .running, _ => .code .ok (react (stopInto .sweep s))
  | .pausing, .run | .paused, .run => .code .ok (react (stopInto .sweep s))
  | _, _ => .code .wrongState s

/-- END_JOB (R167). -/
def execEndJob (tag : Byte) (body : List Byte) (s : State) : Host.Outcome State Fault Refusal :=
  .next (takeFrame 0x26 tag body endJobBody s)

/-! ### AbortJob (R170) -/

/-- R170 step 1: the sets in flight, in path order. -/
def State.pathSets (s : State) : List Slot :=
  let gate := match s.sets.gate with
    | .passing i => if s.sets.accumulator = some i then none else some i
    | .closed (some i) => if s.sets.accumulator = some i then none else some i
    | .closed none => none
  s.track.transport.toList ++ s.carrierSets.reverse ++ s.sets.buffer.toList ++ s.sets.folderSet.toList ++
    s.sets.accumulator.toList ++ gate.toList

/-- R170 step 1, R139: one set diverted IN_PLACE, its piece first withdrawn from its tray. -/
def abortSet (s : State) (i : Slot) : State :=
  let s1 := addFault .aborted i s
  let s2 := match s1.setAt i with
    | some r => withdrawPiece r s1
    | none => s1
  divertSet i .inPlace s2

/-- The OPEN bins. -/
def State.openBins (s : State) : List BinId :=
  allBins.filter fun b => match (s.bin b).state with | .open _ => true | _ => false

/-- R170: the job is aborted. -/
def abortTheJob (s : State) : State :=
  let s1 := s.pathSets.foldl abortSet s
  finishJob .abort .abort (allBins.foldl (fun s b => closeBin b .abort s) s1)

/-- R170: the line states that take AbortJob. -/
def LineState.takesAbort : LineState → Bool
  | .jobIdle | .paused | .faultStop => true
  | _ => false

/-- R170: AbortJob. -/
def abortJobBody (_body : List Byte) (s : State) : Answer :=
  if !s.line.state.takesAbort then .mk' .wrongState (absentBytes 2) s
  else if s.freeManifest < s.openBins.length then .mk' .noSpace (absentBytes 2) s
  else
    .mk' .ok (toBytes 1 s.pathSets.length ++ toBytes 1 (s.pathSets.foldl abortSet s).openBins.length)
      (react (abortTheJob s))

/-- ABORT_JOB (R170). -/
def execAbortJob (tag : Byte) (body : List Byte) (s : State) : Host.Outcome State Fault Refusal :=
  .next (takeFrame 0x27 tag body abortJobBody s)

/-! ### Recover (R172) -/

/-- R121, R172: the piece in the sort transport is taken as delivered. -/
def settleTransport (s : State) : State :=
  match s.track.transport with
  | some i =>
    match s.setAt i with
    | some r => deliverPiece i r true s
    | none => s
  | none => s

/-- R172: Recover. -/
def recoverBody (_body : List Byte) (s : State) : Answer :=
  if s.line.state = .faultStop ∧ !s.jammed then .code .ok (react (enterState .paused .recover (settleTransport s)))
  else .code .wrongState s

/-- RECOVER (R172). -/
def execRecover (tag : Byte) (body : List Byte) (s : State) : Host.Outcome State Fault Refusal :=
  .next (takeFrame 0x28 tag body recoverBody s)

/-! ### StationControl (R109) -/

/-- R109: the reply, with the station's state. -/
def stationReply (result : Result) (n : StationId) (s : State) : Answer :=
  .mk' result (toBytes 1 (stationStateCode (s.station n).state)) s

/-- R56, R109: Enable. An attempt still outstanding is kept as the new sequence's first. -/
def enableStation (n : StationId) (s : State) : State :=
  let s1 := changeStation n .refilling .host (putMonLevel (.station n) .zero s)
  let st := s1.station n
  putStation n { st with seq := match st.seq with | .running _ t => .running 1 t | _ => .waiting 1 } s1

/-- R109: Disable. -/
def disableStation (n : StationId) (s : State) : State :=
  let st := s.station n
  if st.state = .dropping then putStation n { st with pendingDisable := true } s
  else changeStation n .off .host (putStation n { st with seq := .none } s)

/-- R109: StationControl in a state that takes it. -/
def controlStation (n : StationId) (action : Nat) (s : State) : Answer :=
  match action with
  | 0 =>
    match (s.station n).state with
    | .off | .tripped | .empty =>
      let a := stationReply .ok n (enableStation n s)
      { a with state := react a.state }
    | .refilling | .ready | .dropping => stationReply .wrongState n s
  | 1 =>
    let a := stationReply .ok n (disableStation n s)
    { a with state := react a.state }
  | _ => stationReply .badValue n s

/-- R109: StationControl names a station and an action, Enable 0 or Disable 1. -/
def stationControlBody (body : List Byte) (s : State) : Answer :=
  let refused := s.line.state = .standby ∨ s.line.state = .interlock
  match stationOfCode (byteAt body 0) with
  | none => .mk' (if refused then .wrongState else .badValue) absent1 s
  | some n => if refused then stationReply .wrongState n s else controlStation n (fieldAt body 1 1) s

/-- STATION_CONTROL_ENABLE (R109). -/
def execStationControlEnable (tag : Byte) (body : List Byte) (s : State) : Host.Outcome State Fault Refusal :=
  .next (takeFrame 0x30 tag body stationControlBody s)

/-- STATION_CONTROL_DISABLE (R109). -/
def execStationControlDisable (tag : Byte) (body : List Byte) (s : State) : Host.Outcome State Fault Refusal :=
  .next (takeFrame 0x30 tag body stationControlBody s)

/-! ### Keyswitch and guard interlock (R163, R173, R174) -/

/-- R163: a turn of the key. -/
def keyTurned (position : KeyPosition) (s : State) : State :=
  let s1 := { s with line.key := position }
  match position with
  | .setup => pauseLine .key s1
  | .run => s1

/-- KEYSWITCH (R163). -/
def execKeyswitch (position : KeyPosition) (s : State) : Host.Outcome State Fault Refusal :=
  .next (react (keyTurned position s))

/-- R173: the line enters INTERLOCK. From a motion state the return state is set and from PAUSING kept, the pending pause
is discarded, and the blocks cut off what is outstanding; from a line at rest only refills are (log entry 15). -/
def enterInterlock (s : State) : State :=
  let s1 := if s.motion then { s with line.returnState := some s.line.state } else s
  let s2 := enterState .interlock .interlockOpen
    { s1 with line.origin := some s.line.state, line.pendingPause := noSections }
  if s.motion || s.line.state == .pausing then cutOffAll s2 else cutOffTrack (cutOffSets s2)

/-- R173: the interlock input goes OPEN. -/
def guardOpened (s : State) : State :=
  let s1 := { s with line.interlock := .opened }
  if s.jobOpen && s.line.state != .interlock then enterInterlock s1 else s1

/-- INTERLOCK_OPEN (R173). -/
def execInterlockOpen (s : State) : Host.Outcome State Fault Refusal :=
  .next (react (guardOpened s))

/-- R174: the line leaves INTERLOCK by its origin. -/
def leaveInterlock (s : State) : State :=
  let s1 := { s with line.origin := none }
  match s.line.origin with
  | some .jobIdle => enterState .jobIdle .interlockClosed s1
  | some .sweep => enterState .sweep .interlockClosed s1
  | some .faultStop => enterState .faultStop .interlockClosed s1
  | _ => enterState .faultStop .interlockClosed { s1 with line.stopReason := some .interlock }

/-- R174: the interlock input goes CLOSED. -/
def guardClosed (s : State) : State :=
  let s1 := { s with line.interlock := .closed }
  if s.line.state = .interlock then leaveInterlock s1 else s1

/-- INTERLOCK_CLOSED (R174). -/
def execInterlockClosed (s : State) : Host.Outcome State Fault Refusal :=
  .next (react (guardClosed s))

end Sys2Proof.Machine
end

