-- ==== Sys2Proof/Machine/StatusReply.lean ====
section
/-! DEFINITION. The Identify and Status replies (R193, R194), with the widths and the coding of 11.6 (log entry 12). -/

namespace Sys2Proof.Machine

/-- R193: the fields of the Identify reply. The link rate is sent as a number of 4 bytes in bit/s, not as a code of the four rates
(DESIGN CHOICE, log entry 32). -/
def identifyFields (s : State) : List Byte :=
  toBytes 2 Config.partCode ++ toBytes 1 Config.hardwareRevision ++ toBytes 4 (linkRateBits s.link.rate) ++
    toBytes 1 (resetCauseCode s.link.resetCause) ++ toBytes 4 s.time.toNat ++ toBytes 1 Config.queueCapacity ++
    toBytes 2 Config.windowSize ++ toBytes 1 Config.divertCapacity ++ toBytes 1 Config.poolSize ++
    toBytes 1 Config.manifestCapacity ++ toBytes 1 Config.reportCapacity

/-- R154, R194: a stop reason with its detail. NONE, which has no number in R155, is sent as three bytes FF (DESIGN CHOICE, log
entry 32). -/
def stopReasonBytes : Option Reason → List Byte
  | some r => [reasonByte r] ++ reasonDetail r
  | none => absentBytes 3

/-- R154, R194: a selection of sections as one byte: FEED is bit 0, SET bit 1 and TRACK bit 2 (DESIGN CHOICE, log entry 32: 11.6
codes other selections and not this one). -/
def sectionsByte (x : Sections) : List Byte :=
  toBytes 1 ((if x.feed then 1 else 0) + (if x.set then 2 else 0) + (if x.track then 4 else 0))

/-- R194 section 0, LINE. The return state is coded by R154's own list of its values; the interlock origin, whose values R154 does
not list, is coded as a line state (DEDUCED, log entry 12). The lock groups stand one after the other, each with its mode and then its revision (DESIGN CHOICE, log
entry 32). -/
def statusLine (s : State) : List Byte :=
  toBytes 1 (lineStateCode s.line.state) ++ optBytes 1 (s.line.returnState.bind returnStateCode) ++
    optBytes 1 (s.line.origin.map lineStateCode) ++ stopReasonBytes s.line.stopReason ++
    toBytes 1 (runoutTargetCode s.line.runoutTarget) ++ sectionsByte s.line.pendingPause ++
    boolByte s.line.purgeHeldDone ++ toBytes 1 (keyCode s.line.key) ++ toBytes 1 (interlockCode s.line.interlock) ++
    toBytes 2 ((s.reg.job.map Job.code).getD 0) ++
    toBytes 1 (lockModeCode s.plant.mode) ++ toBytes 2 s.plant.revision.toNat ++
    toBytes 1 (lockModeCode s.postal.mode) ++ toBytes 2 s.postal.revision.toNat ++
    toBytes 4 s.time.toNat ++ toBytes 1 s.link.reports.length ++ boolByte s.link.overflow

/-- The eight job counters (R46). -/
def counterBytes (c : Counters) : List Byte :=
  [c.started, c.good, c.faulted, c.delivered, c.divertedMatched, c.divertedStray, c.missing, c.voided].flatMap (toBytes 4)

/-- R194 section 1, JOB. The free divert entries are taken as R45 counts them, not as a count of the job, so that they are 128 while no
job is open (DESIGN CHOICE, log entry 32). -/
def statusJob (s : State) : List Byte :=
  jobBytes s.reg.job ++ filterBytes s.reg.filter ++ toBytes 3 s.reg.base ++ toBytes 1 s.reg.queue.length ++
    toBytes 1 s.setsInFlight ++ toBytes 1 s.unassigned ++ toBytes 1 s.freeDiverts ++ toBytes 1 s.freeManifest ++
    counterBytes s.reg.counters

/-- The release item (R82). -/
def releaseCode : Release → Nat
  | .none => 0 | .pending => 1 | .early _ => 2 | .forward _ => 3

/-- The folder state (R82). -/
def folderCode : Folder → Nat
  | .idle => 0 | .moving .. => 1 | .waiting => 2 | .folding _ => 3

/-- R194: a count of the open job: absent where it does not apply, and 0 while no job is open. -/
def State.jobCount (s : State) (width : Nat) (n : Option Nat) : List Byte :=
  if s.jobOpen then optBytes width n else toBytes width (n.getD 0)

/-- A field of the line configuration, absent while none is held. -/
def cfgField (width : Nat) (s : State) (f : LineConfig → Nat) : List Byte := optBytes width (s.plant.config.map f)

/-- R194 section 2, FLOW: the items of R4 and R82 that the Status reply carries. -/
def statusFlow (s : State) : List Byte :=
  toBytes 1 (collStateCode s.coll.state) ++ toBytes 1 s.coll.expectedIndex ++ markBytes s.coll.lastMark ++
    optBytes 1 s.coll.expectedWrap ++ toBytes 1 (feedHoldCode s.coll.feedHold) ++
    slotByte s.sets.accumulator ++ s.jobCount 1 ((s.setAt? s.sets.accumulator).map SetRecord.received) ++
    toBytes 1 (releaseCode s.sets.release) ++ toBytes 1 s.sets.earlyCount ++
    cfgField 1 s LineConfig.earlyCapacity ++ toBytes 1 (folderCode s.sets.folder) ++ slotByte s.sets.folderSet ++
    optBytes 2 s.sets.plate1 ++ optBytes 2 s.sets.plate2 ++ slotByte s.sets.buffer

/-- A station's state and the number of the refill attempt outstanding (R104), absent where none is (log entry 22). The two stand
station by station (DESIGN CHOICE, log entry 32). -/
def stationStatus (st : Station) : List Byte :=
  toBytes 1 (stationStateCode st.state) ++ optBytes 1 (match st.seq with | .running k _ => some k | _ => none)

/-- A jam zone: CLEAR or JAMMED, with the blocked sensor. The two stand zone by zone (DESIGN CHOICE, log entry 32). -/
def zoneStatus (z : JamZone) : List Byte := boolByte z.jammed.isSome ++ optBytes 1 (z.jammed.map fun k => k.val + 1)

/-- R194 section 3, TRACK: the items of R97 that the Status reply carries. State and refill attempt stand station by station, and
a zone's state with its sensor zone by zone (DESIGN CHOICE, log entry 32). -/
def statusTrack (s : State) : List Byte :=
  s.track.carriers.toList.flatMap slotByte ++ boolByte s.track.index.isSome ++ toBytes 1 s.track.purgePitches ++
    s.track.stations.toList.flatMap stationStatus ++ toBytes 1 (pocketCode s.track.head.pocket) ++
    toBytes 1 s.track.lateCount ++ cfgField 1 s LineConfig.lateCapacity ++ slotByte s.track.transport ++
    s.track.zones.toList.flatMap zoneStatus

/-- The monitors in the order of R48. -/
def allMonitors : List MonitorId := [.read, .envelope, .exit] ++ allStations.map .station

/-- The parameters of a monitor, those of the line configuration absent while none is held. -/
def State.monParams? (s : State) : MonitorId → Option MonParams
  | .read => s.plant.config.map LineConfig.readMon
  | .envelope => s.plant.config.map LineConfig.envelopeMon
  | .exit => s.plant.config.map LineConfig.exitMon
  | .station n => some s.plant.stations[n].mon

/-- One monitor's level, good count and parameters, which stand monitor by monitor (DESIGN CHOICE, log entry 32). -/
def monitorStatus (s : State) (m : MonitorId) : List Byte :=
  toBytes 1 (s.monLevel m).level ++ toBytes 1 (s.monLevel m).good ++ optBytes 1 ((s.monParams? m).map MonParams.u) ++
    optBytes 1 ((s.monParams? m).map MonParams.d) ++ optBytes 1 ((s.monParams? m).map MonParams.t)

/-- R194 section 4, MONITORS. -/
def statusMonitors (s : State) : List Byte :=
  allMonitors.flatMap (monitorStatus s) ++ toBytes 1 (provingCode s.mon.proving) ++ toBytes 1 s.mon.provingGood ++
    toBytes 1 s.mon.provingFault ++ cfgField 1 s LineConfig.provingP ++ cfgField 1 s LineConfig.provingM

/-- One bin: its state, its tray number, the open tray's group, count and weight, and its pieces on their way (R127). The items
stand bin by bin (DESIGN CHOICE, log entry 32). The count and weight of a bin that is not OPEN are absent, and 0 while no job is
open. -/
def binStatus (s : State) (b : Bin) : List Byte :=
  toBytes 1 (binStateCode b.state) ++
    (match b.state with
      | .open t => toBytes 2 t.number ++ toBytes 1 t.group ++ toBytes 2 t.count ++ toBytes 4 t.weight
      | .swap => optBytes 2 b.lastTray ++ absentBytes 1 ++ s.jobCount 2 none ++ s.jobCount 4 none
      | .free => absentBytes 3 ++ s.jobCount 2 none ++ s.jobCount 4 none) ++ toBytes 1 b.onWay

/-- R194 section 5, BINS. -/
def statusBins (s : State) : List Byte := s.presort.bins.toList.flatMap (binStatus s) ++ optBytes 2 s.presort.nextTray

/-- One level's totals (R151). -/
def totalsStatus (t : LevelTotals) : List Byte := [t.trays, t.pieces, t.postage].flatMap (toBytes 4)

/-- R194 section 6, POSTAL. -/
def statusPostal (s : State) : List Byte :=
  totalsStatus s.postage.direct ++ totalsStatus s.postage.area ++ totalsStatus s.postage.mixed ++
    toBytes 4 s.postage.closedPieces ++ toBytes 4 s.postage.withdrawnAfter ++ toBytes 1 s.postage.manifest.length

/-- R194: the items of a section; none for a section outside the seven. -/
def statusSection (s : State) (n : Byte) : Option (List Byte) :=
  match n.toNat with
  | 0 => some (statusLine s)
  | 1 => some (statusJob s)
  | 2 => some (statusFlow s)
  | 3 => some (statusTrack s)
  | 4 => some (statusMonitors s)
  | 5 => some (statusBins s)
  | 6 => some (statusPostal s)
  | _ => none

end Sys2Proof.Machine
end

