-- ==== Sys2Proof/Machine/TrackCommands.lean ====
section
/-! DEFINITION. The meanings of the rows at the insert track: indexing, stations, the insert head and the exit checks
(chapter 6, sections 6.2 to 6.5). -/

namespace Sys2Proof.Machine

/-! ### Indexing (R99 to R101) -/

/-- INDEX_START (R99, R117, R119): the Track Controller tests for an index. -/
def execIndexStart (s : State) : Host.Outcome State Fault Refusal :=
  .next (refresh (indexAct s))

/-- R100 step 1: the set at P11 leaves the track, into the sort transport with a bin assigned and otherwise into the late
divert bin. -/
def leaveTrack (s : State) : State :=
  match s.carrier 11 with
  | none => s
  | some i =>
    match s.setAt i with
    | none => s
    | some r =>
      if r.bin.isSome then
        { s.modSet i (fun r => { r with stage := .inTransport }) with
          track.transport := some i, track.delivery := some (s.timer s.cfg.deliveryTime) }
      else divertSet i .late { s with track.lateCount := s.track.lateCount + 1, track.lateArmed := true }

/-- The stage of the set at a position written (R97). -/
def stampStage (s : State) (p : Position) : State :=
  s.modSet? (s.carrier p) fun r => { r with stage := .onTrack p }

/-- The positions P0 to P11. -/
def allPositions : List Position := [0, 1, 2, 3, 4, 5, 6, 7, 8, 9, 10, 11]

/-- R100 steps 2 and 3, R92: every carrier moves up one position and the buffered set becomes the carrier at P0. -/
def shiftTrack (s : State) : State :=
  let old := s.track.carriers
  allPositions.foldl stampStage
    { s with track.carriers := #v[s.sets.buffer, old[0], old[1], old[2], old[3], old[4], old[5], old[6],
        old[7], old[8], old[9], old[10]]
             sets.buffer := none }

/-- Whether a completed index counts a purge pitch: the line is in PURGE, or in PAUSING having left it (log entry 13). -/
def State.purging (s : State) : Bool :=
  s.line.state == .purge || (s.line.state == .pausing && s.line.returnState == some .purge)

/-- R100 step 4, R101, R160: a purge pitch counted; a purge that is done while the line is PAUSING is held. -/
def countPitch (s : State) : State :=
  if s.purging && 0 < s.track.purgePitches then
    { s with track.purgePitches := s.track.purgePitches - 1
             line.purgeHeldDone := s.line.purgeHeldDone || (s.line.state == .pausing && s.track.purgePitches == 1) }
  else s

/-- R100: an index has completed, up to the positions' own actions. The new carrier at P11 asks for its bin, and the
late divert gate stands to its divert side again (log entry 17). A late divert that fails proving takes the line to RUNOUT in step 1,
and the positions of step 5 then act in RUNOUT, not in the state held at the completion (DESIGN CHOICE, log entry 35). -/
def indexed (s : State) : State :=
  let s1 := countPitch (shiftTrack (leaveTrack { s with track.index := none }))
  { s1 with track.assignDue := true, track.sortReported := false, track.lateGate := .divert }

/-- INDEX_COMPLETION (R100), ignored while the index item is NONE. -/
def execIndexCompletion (s : State) : Host.Outcome State Fault Refusal :=
  .next <| react <| if s.track.index.isSome then indexed s else s

/-- INDEX_TIMEOUT (R122). -/
def execIndexTimeout (s : State) : Host.Outcome State Fault Refusal :=
  .next <| react <| if s.track.index.isSome then faultStop .indexTimeout s else s

/-! ### Drops (R106, R107) -/

/-- DROP_REQUEST (R106): the station acts on the carrier that awaits its drop. -/
def execDropRequest (n : StationId) (s : State) : Host.Outcome State Fault Refusal :=
  .next (react (takeOption (dropAct n s)))

/-- The piece number of the set on a carrier. -/
def State.carrierPiece (s : State) (p : Position) : Option Nat := (s.setAt? (s.carrier p)).bind SetRecord.piece

/-- R107: a drop's result recorded on the set. -/
def dropResult (n : StationId) (result : DropResult) (s : State) : State :=
  match result with
  | .good => s.modSet? (s.carrier (stationPosition n)) fun r => { r with stationsDone := addStation r.stationsDone n }
  | .miss => addFault? .insertMiss (s.carrier (stationPosition n)) s
  | .double => addFault? .insertDouble (s.carrier (stationPosition n)) s

/-- R107: the event of a drop's result given to the station's monitor. -/
def dropEvent (n : StationId) (result : DropResult) (s : State) : State :=
  match result with
  | .good => monitorGood (.station n) s
  | .miss => monitorFault (.station n) .insertMiss (s.carrierPiece (stationPosition n)) s
  | .double => monitorFault (.station n) .insertDouble (s.carrierPiece (stationPosition n)) s

/-- R107, R109: what a station becomes when its drop has ended. -/
def afterDrop (n : StationId) (s : State) : State :=
  let st := s.station n
  if st.pendingDisable then changeStation n .off .host (putStation n { st with seq := .none, pendingDisable := false } s)
  else putStation n { st with state := if st.state = .tripped then .tripped else .refilling, seq := .waiting 1 } s

/-- R107: a drop has ended with a result. -/
def dropEnded (n : StationId) (result : DropResult) (s : State) : State :=
  afterDrop n <| dropEvent n result <| dropResult n result <| putStation n { s.station n with drop := none } s

/-- DROP_COMPLETION (R107), ignored while no drop is outstanding. -/
def execDropCompletion (n : StationId) (result : DropResult) (s : State) : Host.Outcome State Fault Refusal :=
  .next <| react <| if (s.station n).drop.isSome then dropEnded n result s else s

/-- DROP_TIMEOUT (R107): the drop ends with result MISS. -/
def execDropTimeout (n : StationId) (s : State) : Host.Outcome State Fault Refusal :=
  .next <| react <| if (s.station n).drop.isSome then dropEnded n .miss s else s

/-! ### Refills (R108) -/

/-- REFILL_ATTEMPT_START (R108): a due attempt starts while the line is in a motion state. -/
def execRefillAttemptStart (n : StationId) (s : State) : Host.Outcome State Fault Refusal :=
  .next (refresh (refillAct n s))

/-- R108, R110: a refill attempt has succeeded. -/
def refilled (n : StationId) (s : State) : State :=
  let st := s.station n
  if st.state = .refilling then
    let s1 := putStation n { st with state := .ready, seq := .none, announce := false } s
    if st.announce then queueReport (.stationChange n .refilling .ready .refillDone) s1 else s1
  else putStation n { st with seq := .none } s

/-- R108: attempt `k` has failed. -/
def refillFailed (n : StationId) (k : Nat) (s : State) : State :=
  let s1 := putStation n { s.station n with seq := if k < 3 then .waiting (k + 1) else .none } s
  let s2 := monitorFault (.station n) .refillFail none s1
  if 3 ≤ k ∧ (s2.station n).state = .refilling then changeStation n .empty .refillExhausted s2 else s2

/-- REFILL_COMPLETION (R108), ignored while no attempt is outstanding. -/
def execRefillCompletion (n : StationId) (result : RefillResult) (s : State) : Host.Outcome State Fault Refusal :=
  .next <| react <|
    match (s.station n).seq, result with
    | .running _ _, .good => refilled n s
    | .running k _, .fail => refillFailed n k s
    | _, _ => s

/-- REFILL_TIMEOUT (R108): the attempt ends as failed. -/
def execRefillTimeout (n : StationId) (s : State) : Host.Outcome State Fault Refusal :=
  .next <| react <|
    match (s.station n).seq with
    | .running k _ => refillFailed n k s
    | _ => s

/-! ### The envelope insert head (R111, R112) -/

/-- INSERT_REQUEST (R111): the head acts on the carrier that awaits an envelope. -/
def execInsertRequest (s : State) : Host.Outcome State Fault Refusal :=
  .next (react (takeOption (insertAct s)))

/-- R111: an insert's result recorded on the set. -/
def insertResult (result : InsertResult) (s : State) : State :=
  s.modSet? (s.carrier 8) fun r =>
    { r with
      insertDone := true
      faults := match result with
        | .good => r.faults
        | .envelopeMiss => addKind r.faults .envelopeMiss
        | .insertFail => addKind r.faults .insertFail }

/-- R111: the event of an insert's result given to the ENVELOPE monitor. -/
def insertEvent (result : InsertResult) (s : State) : State :=
  match result with
  | .good => monitorGood .envelope s
  | .envelopeMiss => monitorFault .envelope .envelopeMiss (s.carrierPiece 8) s
  | .insertFail => monitorFault .envelope .insertFail (s.carrierPiece 8) s

/-- R111: an envelope insert has ended with a result; every result makes the pocket REFILLING. -/
def insertEnded (result : InsertResult) (s : State) : State :=
  insertEvent result { insertResult result s with track.head.insert := none, track.head.pocket := .refilling }

/-- INSERT_COMPLETION (R111), ignored while no insert is outstanding. -/
def execInsertCompletion (result : InsertResult) (s : State) : Host.Outcome State Fault Refusal :=
  .next <| react <| if s.track.head.insert.isSome then insertEnded result s else s

/-- INSERT_TIMEOUT (R111): the insert ends as INSERT_FAIL. -/
def execInsertTimeout (s : State) : Host.Outcome State Fault Refusal :=
  .next <| react <| if s.track.head.insert.isSome then insertEnded .insertFail s else s

/-- ENVELOPE_REFILL_START (R112): a due refill starts while the line is in a motion state. -/
def execEnvelopeRefillStart (s : State) : Host.Outcome State Fault Refusal :=
  .next (refresh (envelopeAct s))

/-- R112: an envelope refill has ended. -/
def envelopeRefilled (result : RefillResult) (s : State) : State :=
  match result with
  | .good => { s with track.head.refill := none, track.head.pocket := .staged }
  | .fail => monitorFault .envelope .refillFail none { s with track.head.refill := none, track.head.pocket := .empty }

/-- ENVELOPE_REFILL_COMPLETION (R112), ignored while no refill is outstanding. -/
def execEnvelopeRefillCompletion (result : RefillResult) (s : State) : Host.Outcome State Fault Refusal :=
  .next <| react <| if s.track.head.refill.isSome then envelopeRefilled result s else s

/-- ENVELOPE_REFILL_TIMEOUT (R112): the refill fails. -/
def execEnvelopeRefillTimeout (s : State) : Host.Outcome State Fault Refusal :=
  .next <| react <| if s.track.head.refill.isSome then envelopeRefilled .fail s else s

/-! ### Exit checks (R113, R114) -/

/-- SCAN_REQUEST (R113): a scan is requested for the carrier that awaits one. -/
def execScanRequest (s : State) : Host.Outcome State Fault Refusal :=
  .next (refresh (scanAct s))

/-- R113: a scan has ended, with the number read if any. -/
def scanEnded (read : Option Nat) (s : State) : State :=
  let slot := s.carrier 10
  let piece := s.carrierPiece 10
  let s1 := { s with track.scan := none }
  match read with
  | some p =>
    if piece = some p then monitorGood .exit (s1.modSet? slot fun r => { r with scan := some (.read p) })
    else
      monitorFault .exit .windowMismatch piece
        (s1.modSet? slot fun r => { r with scan := some (.read p), faults := addKind r.faults .windowMismatch })
  | none =>
    monitorFault .exit .windowNoRead piece
      (s1.modSet? slot fun r => { r with scan := some .noRead, faults := addKind r.faults .windowNoRead })

/-- SCAN_RECORD (R113), ignored while no scan is outstanding. -/
def execScanRecord (piece : Option (BitVec 24)) (s : State) : Host.Outcome State Fault Refusal :=
  .next <| react <| if s.track.scan.isSome then scanEnded (piece.map BitVec.toNat) s else s

/-- SCAN_TIMEOUT (R113): the scan ends as no read. -/
def execScanTimeout (s : State) : Host.Outcome State Fault Refusal :=
  .next <| react <| if s.track.scan.isSome then scanEnded none s else s

/-- WEIGH_REQUEST (R114): a weighing is requested for the carrier that awaits one. -/
def execWeighRequest (s : State) : Host.Outcome State Fault Refusal :=
  .next (refresh (weighAct s))

/-- R114: whether a measured weight differs from the expected weight by more than the tolerance for `n` sheets. -/
def weightOff (c : LineConfig) (n : Nat) (expected measured : Nat) : Bool :=
  c.weightBase + n * c.weightPerSheet < (measured - expected) + (expected - measured)

/-- R114: a set's record after its weighing. -/
def weighedRecord (c : LineConfig) (steps : Option (List Nat)) (w : Nat) (r : SetRecord) : SetRecord :=
  let off := match r.expected with
    | some e => weightOff c r.received e w
    | none => false
  let heavy := match lastBound steps with
    | some b => b < w
    | none => false
  { r with measured := some w, faults := addKindIf heavy .overweight (addKindIf off .weightMismatch r.faults) }

/-- R114: a weight has been taken. -/
def weighed (w : Nat) (s : State) : State :=
  { s.modSet? (s.carrier 10) (weighedRecord s.cfg s.postal.steps w) with track.weigh := none }

/-- WEIGHT_RECORD (R114), ignored while no weighing is outstanding. -/
def execWeightRecord (weight : BitVec 24) (s : State) : Host.Outcome State Fault Refusal :=
  .next <| react <| if s.track.weigh.isSome then weighed (clampWeight weight) s else s

/-- WEIGH_TIMEOUT (R114). -/
def execWeighTimeout (s : State) : Host.Outcome State Fault Refusal :=
  .next <| react <| if s.track.weigh.isSome then faultStop .weighTimeout s else s

end Sys2Proof.Machine
end

