-- ==== Sys2Proof/Machine/LinkCommands.lean ====
section
/-! DEFINITION. The meanings of the rows of the resets, the Message Link and the instrument ports (chapter 11, R157,
R183, R184, R187 to R195), but for the receive side's (Receive). -/

namespace Sys2Proof.Machine

/-! ### Resets (R183, R184) -/

/-- R184: the PLANT group after the reset line or Restart. -/
def Plant.afterReset (p : Plant) : Plant := if p.mode = .powerLocked then p else .powerOn

/-- R184: the POSTAL group after the reset line or Restart. -/
def Postal.afterReset (p : Postal) : Postal := if p.mode = .powerLocked then p else .powerOn

/-- R184: a reset that keeps POWER_LOCKED groups. -/
def keepingReset (cause : ResetCause) (inp : Inputs) (s : State) : State :=
  .afterReset cause inp s.plant.afterReset s.postal.afterReset s.pending

/-- POWER_ON (R183). -/
def execPowerOn (inp : Inputs) (s : State) : Host.Outcome State Fault Refusal :=
  .next (.afterReset .powerOn inp .powerOn .powerOn s.pending)

/-- RESET_LINE (R184). -/
def execResetLine (inp : Inputs) (s : State) : Host.Outcome State Fault Refusal :=
  .next (keepingReset .resetLine inp s)

/-! ### Overrun, unknown types and the end of a reply (R187, R188) -/

/-- OVERRUN (R187): a complete frame while a request is held; with none held there is no overrun (log entry 7). -/
def execOverrun (tag type : Byte) (_body : List Byte) (s : State) : Host.Outcome State Fault Refusal :=
  .next (if s.link.held.isSome then overrunFrame tag type s else s)

/-- R188: a request whose TYPE names no request is answered UNKNOWN_TYPE. -/
def takeUnknown (tag type : Byte) (s : State) : State :=
  match s.link.held with
  | some _ => overrunFrame tag type s
  | none => holdReply tag type { result := .unknownType, fields := [] } false s

/-- UNKNOWN_TYPE (R188); a TYPE that names a request is not this command's (log entry 7). -/
def execUnknownType (tag type : Byte) (_body : List Byte) (s : State) : Host.Outcome State Fault Refusal :=
  .next (if isRequestType type then s else takeUnknown tag type s)

/-- REPLY_SENT (R187): the request is held no longer; after a Restart's reply the part resets (R157). -/
def execReplySent (inp : Inputs) (s : State) : Host.Outcome State Fault Refusal :=
  .next <|
    match s.link.held with
    | some h => if h.restart then keepingReset .restart inp s else { s with link.held := none }
    | none => s

/-! ### Identify, Status, Poll and Restart -/

/-- R193. -/
def identifyBody (_body : List Byte) (s : State) : Answer := .mk' .ok (identifyFields s) s

/-- IDENTIFY (R193). -/
def execIdentify (tag : Byte) (body : List Byte) (s : State) : Host.Outcome State Fault Refusal :=
  .next (takeFrame 0x01 tag body identifyBody s)

/-- R194: the section's number and its items. A section refused with BAD_VALUE sends the number that the request carried, and no items
after it (DESIGN CHOICE, log entry 32). -/
def statusBody (body : List Byte) (s : State) : Answer :=
  match statusSection s (byteAt body 0) with
  | some items => .mk' .ok ([byteAt body 0] ++ items) s
  | none => .mk' .badValue [byteAt body 0] s

/-- STATUS (R194). -/
def execStatus (tag : Byte) (body : List Byte) (s : State) : Host.Outcome State Fault Refusal :=
  .next (takeFrame 0x02 tag body statusBody s)

/-- R192: up to `n` of the oldest entries returned and removed, and the overflow flag cleared. The entries stand after the two
numbers and the flag, though R192 names them first (DESIGN CHOICE, log entry 32). -/
def pollReports (n : Nat) (s : State) : Answer :=
  let taken := s.link.reports.take n
  let left := s.link.reports.drop n
  .mk' .ok (toBytes 1 taken.length ++ toBytes 1 left.length ++ boolByte s.link.overflow ++ taken.flatMap reportBytes)
    { s with link.reports := left, link.overflow := false }

/-- R192: Poll's count checked. A refused Poll sends the overflow flag as it stands and leaves it set (DESIGN CHOICE, log entry 32). -/
def pollBody (body : List Byte) (s : State) : Answer :=
  let n := (byteAt body 0).toNat
  if 1 ≤ n ∧ n ≤ 8 then pollReports n s
  else .mk' .badValue (toBytes 1 0 ++ toBytes 1 s.link.reports.length ++ boolByte s.link.overflow) s

/-- POLL (R192). -/
def execPoll (tag : Byte) (body : List Byte) (s : State) : Host.Outcome State Fault Refusal :=
  .next (takeFrame 0x03 tag body pollBody s)

/-- R157: Restart, taken in STANDBY and READY; the reset follows its reply. -/
def restartBody (_body : List Byte) (s : State) : Answer :=
  if s.jobOpen then .code .wrongState s else { reply := { result := .ok, fields := [] }, state := s, restart := true }

/-- RESTART (R157). -/
def execRestart (tag : Byte) (body : List Byte) (s : State) : Host.Outcome State Fault Refusal :=
  .next (takeFrame 0x3F tag body restartBody s)

/-! ### Instrument ports (R195) -/

/-- R195: an event of an instrument record at its owning block. -/
def takeInstrument (e : InstrumentEvent) (s : State) : State :=
  match e with
  | .read tag mark => takeRead tag mark s
  | .sheetEnd tag => takeSheetEnd tag s
  | .scan piece => if s.track.scan.isSome then scanEnded (piece.map BitVec.toNat) s else s
  | .weight w => if s.track.weigh.isSome then weighed (clampWeight w) s else s

/-- R195: what a port's verdict on the bytes of a record does: a record that passes is an event at its owning block, and a
faulty one is discarded without report. -/
def takeRecord (s : State) (v : RecordVerdict) : State :=
  match v with
  | .event e => react (takeInstrument e s)
  | .incomplete | .faulty => s

/-- R195: bytes arrive at a port. After a discard it looks for 0xA5 again from the next byte. -/
def takePort (port : InstrumentPort) (bytes : List Byte) (s : State) : State :=
  (gatherRecords port (s.ports.bytes port) bytes).2.foldl takeRecord
    { s with ports := s.ports.put port (gatherRecords port (s.ports.bytes port) bytes).1 }

/-- INSTRUMENT_RECORD_DISCARD (R195): bytes with a faulty record among them. -/
def execInstrumentRecordDiscard (port : InstrumentPort) (bytes : List Byte) (s : State) :
    Host.Outcome State Fault Refusal :=
  .next (takePort port bytes s)

/-- INSTRUMENT_GAP_TIMEOUT (R195): after the bytes the record being gathered is discarded without report. -/
def execInstrumentGapTimeout (port : InstrumentPort) (bytes : List Byte) (s : State) :
    Host.Outcome State Fault Refusal :=
  .next { takePort port bytes s with ports := (takePort port bytes s).ports.put port [] }

end Sys2Proof.Machine
end

