-- ==== Sys2Proof/Machine/PostageCommands.lean ====
section
/-! DEFINITION. The meanings of CloseTray and of the two modes of FetchManifest (R137, R149, R150). -/

namespace Sys2Proof.Machine

/-! ### CloseTray (R137) -/

/-- R137: the unassigned sets, an outstanding feed counted among them. -/
def State.roomNeeded (s : State) : Nat := s.unassigned + (if s.feeding then 1 else 0)

/-- R137: the tray number of the tray a bin holds or held: for a bin not OPEN its last tray (R127). A tray discarded by a
withdrawal (R139) never becomes the last tray, so that a bin it left FREE gives the tray before it, or none (DESIGN CHOICE, log
entry 34). -/
def Bin.trayNumber (b : Bin) : Option Nat :=
  match b.state with
  | .open t => some t.number
  | _ => b.lastTray

/-- R137: the reply of CloseTray for a bin. -/
def trayReply (result : Result) (b : BinId) (s : State) : Answer :=
  .mk' result
    (toBytes 1 (binStateCode (s.bin b).state) ++ optBytes 2 (s.bin b).trayNumber ++ toBytes 1 s.freeManifest) s

/-- R137: CloseTray for one of the eleven bins. -/
def closeTrayOf (b : BinId) (s : State) : Answer :=
  match (s.bin b).state with
  | .open _ =>
    if s.roomNeeded < s.freeManifest then
      let a := trayReply .ok b (closeBin b .host s)
      { a with state := react a.state }
    else trayReply .noSpace b s
  | .free | .swap => trayReply .wrongState b s

/-- R137: CloseTray. -/
def closeTrayBody (body : List Byte) (s : State) : Answer :=
  match binOfCode (byteAt body 0) with
  | some b => closeTrayOf b s
  | none => .mk' .badValue (absentBytes 3 ++ toBytes 1 s.freeManifest) s

/-- CLOSE_TRAY (R137). -/
def execCloseTray (tag : Byte) (body : List Byte) (s : State) : Host.Outcome State Fault Refusal :=
  .next (takeFrame 0x31 tag body closeTrayBody s)

/-! ### FetchManifest (R149, R150) -/

/-- The reply of FetchManifest: the number returned, the number left, and the entries. -/
def fetchReply (result : Result) (entries : List ManifestEntry) (s : State) : Answer :=
  .mk' result (toBytes 1 entries.length ++ toBytes 1 s.postage.manifest.length ++ entries.flatMap manifestBytes) s

/-- R149: mode NEXT: the oldest entries leave the manifest and become the retained fetch. -/
def fetchNext (n : Nat) (s : State) : Answer :=
  let taken := s.postage.manifest.take n
  let a := fetchReply .ok taken
    { s with postage.manifest := s.postage.manifest.drop n, postage.retained := taken }
  { a with state := react a.state }

/-- R150: mode REPEAT: the retained fetch again. -/
def fetchRepeat (s : State) : Answer := fetchReply .ok s.postage.retained s

/-- R149, R150: FetchManifest: the mode, NEXT 0 or REPEAT 1, and the count 1 to 4 checked. -/
def fetchBody (body : List Byte) (s : State) : Answer :=
  let mode := fieldAt body 0 1
  let n := fieldAt body 1 1
  if 1 ≤ n ∧ n ≤ 4 ∧ mode ≤ 1 then (if mode = 0 then fetchNext n s else fetchRepeat s)
  else fetchReply .badValue [] s

/-- FETCH_MANIFEST_NEXT (R149). -/
def execFetchManifestNext (tag : Byte) (body : List Byte) (s : State) : Host.Outcome State Fault Refusal :=
  .next (takeFrame 0x35 tag body fetchBody s)

/-- FETCH_MANIFEST_REPEAT (R150). -/
def execFetchManifestRepeat (tag : Byte) (body : List Byte) (s : State) : Host.Outcome State Fault Refusal :=
  .next (takeFrame 0x35 tag body fetchBody s)

end Sys2Proof.Machine
end

