-- ==== Sys2Proof/Machine/RegisterCommands.lean ====
section
/-! DEFINITION. The meanings of the host's requests on pieces, diverts and the range filter (chapter 2, R24 and R25). -/

namespace Sys2Proof.Machine

/-! ### SetRangeFilter (R25) -/

/-- R25: the reply with the filter in force. -/
def filterReply (result : Result) (s : State) : Answer := .mk' result (filterBytes s.reg.filter) s

/-- R25: SetRangeFilter. -/
def setRangeFilterBody (body : List Byte) (s : State) : Answer :=
  if s.line.state = .standby then filterReply .wrongState s
  else if body.isEmpty then filterReply .ok s
  else
    match parseFilter body with
    | none => filterReply .badValue s
    | some f => filterReply .ok { s with reg.filter := f }

/-- SET_RANGE_FILTER (R25). -/
def execSetRangeFilter (tag : Byte) (body : List Byte) (s : State) : Host.Outcome State Fault Refusal :=
  .next (takeFrame 0x14 tag body setRangeFilterBody s)

/-! ### LoadPieces (R27, R28) -/

/-- R27: the line states that take LoadPieces. -/
def LineState.takesLoad : LineState → Bool
  | .jobIdle | .purge | .proving | .running | .pausing | .paused | .runout | .faultStop => true
  | .standby | .ready | .sweep | .interlock => false

/-- R28, R40: a piece's MATCHED divert entry removed. -/
def dropDivert (p : Nat) (s : State) : State :=
  { s with reg.diverts := s.reg.diverts.filter fun e => !(e.kind == .matched && e.piece == some p) }

/-- R27: a record accepted: it joins the newest end of the queue, and its piece becomes HELD. -/
def acceptRecord (r : PieceRecord) (s : State) : State :=
  armLowWater (setPiece r.piece .held { s with reg.queue := s.reg.queue ++ [r] })

/-- R28 checks 3 to 10 for a record whose fields are in range: the refusal, or the state with it accepted. -/
def placeRecord (r : PieceRecord) (s : State) : Result × State :=
  match s.place r.piece with
  | .below => (.duplicatePiece, s)
  | .above => (.outOfWindow, s)
  | .within =>
    match s.pieceState r.piece, r.reprint with
    | .held, _ | .delivered, _ | .voided, _ => (.duplicatePiece, s)
    | .diverted, false | .missing, false => (.notReprint, s)
    | .free, true => (.notDiverted, s)
    | .free, false | .missing, true => (.ok, acceptRecord r s)
    | .diverted, true => (.ok, acceptRecord r (dropDivert r.piece s))

/-- R28: one record of a LoadPieces checked, and accepted if every check passes. -/
def loadRecord (b : List Byte) (s : State) : Result × State :=
  if Config.queueCapacity ≤ s.reg.queue.length then (.queueFull, s)
  else
    match parsePieceRecord b with
    | none => (.badValue, s)
    | some r => if s.plant.plans[r.plan].isNone then (.badValue, s) else placeRecord r s

/-- R27: the records taken in order up to the first refused: the result, the number accepted, the state. -/
def loadRecords : List (List Byte) → State → Result × Nat × State
  | [], s => (.ok, 0, s)
  | b :: rest, s =>
    match loadRecord b s with
    | (.ok, s') =>
      let t := loadRecords rest s'
      (t.1, t.2.1 + 1, t.2.2)
    | (refusal, _) => (refusal, 0, s)

/-- R27: the reply of LoadPieces. -/
def loadReply (result : Result) (accepted : Nat) (s : State) : Answer :=
  .mk' result (toBytes 1 accepted ++ toBytes 1 s.reg.queue.length ++ toBytes 3 s.reg.base) s

/-- R27: LoadPieces. -/
def loadPiecesBody (body : List Byte) (s : State) : Answer :=
  if s.line.state.takesLoad then
    let t := loadRecords (splitRecords 20 body) s
    let a := loadReply t.1 t.2.1 t.2.2
    { a with state := react a.state }
  else loadReply .wrongState 0 s

/-- LOAD_PIECES (R27). -/
def execLoadPieces (tag : Byte) (body : List Byte) (s : State) : Host.Outcome State Fault Refusal :=
  .next (takeFrame 0x21 tag body loadPiecesBody s)

/-! ### VoidPiece (R40) -/

/-- A piece's state as a reply gives it, absent where it has none. The piece at the base that a VoidPiece settles has left the
window when the reply is made, and its state is absent (DESIGN CHOICE, log entry 34). -/
def State.pieceStateByte (s : State) (p : Nat) : List Byte :=
  if s.jobOpen then
    match s.place p with
    | .within => toBytes 1 (pieceStateCode (s.pieceState p))
    | _ => absent1
  else absent1

/-- R40: the reply of VoidPiece. -/
def voidReply (result : Result) (p : Nat) (s : State) : Answer :=
  .mk' result (s.pieceStateByte p ++ toBytes 3 s.reg.base) s

/-- R40: a piece settled as VOIDED: the counter and the base follow. -/
def settleVoid (p : Nat) (s : State) : State :=
  advanceWindow (setPiece p .voided { s with reg.counters.voided := countUp s.reg.counters.voided 1 })

/-- R40: the outcome for a piece of the window. -/
def voidWithin (p : Nat) (s : State) : Result × State :=
  match s.pieceState p with
  | .diverted => (.ok, settleVoid p (dropDivert p s))
  | .missing => (.ok, settleVoid p s)
  | .held =>
    match s.queuePosition p with
    | some j => (.ok, lowWater s.reg.queue.length (settleVoid p { s with reg.queue := s.reg.queue.eraseIdx j }))
    | none => (.inFlight, s)
  | .free | .delivered | .voided => (.notDiverted, s)

/-- R40: VoidPiece. -/
def voidPieceBody (body : List Byte) (s : State) : Answer :=
  let p := fieldAt body 0 3
  if !s.jobOpen then voidReply .wrongState p s
  else if p = 0 then voidReply .badValue p s
  else
    match s.place p with
    | .within =>
      let t := voidWithin p s
      let a := voidReply t.1 p t.2
      { a with state := react a.state }
    | _ => voidReply .notDiverted p s

/-- VOID_PIECE (R40). -/
def execVoidPiece (tag : Byte) (body : List Byte) (s : State) : Host.Outcome State Fault Refusal :=
  .next (takeFrame 0x32 tag body voidPieceBody s)

/-! ### ReleaseStray (R41) -/

/-- R41: whether an entry is a STRAY entry with a divert number. -/
def isStray (number : Nat) (e : DivertEntry) : Bool := e.number == number && e.kind == .stray

/-- R41: ReleaseStray: the oldest STRAY entry with the number leaves (DESIGN CHOICE, log entry 34: after the numbers have
wrapped two may share one). -/
def releaseStrayBody (body : List Byte) (s : State) : Answer :=
  let number := fieldAt body 0 2
  if !s.jobOpen then .code .wrongState s
  else if s.reg.diverts.any (isStray number) then
    .code .ok (react { s with reg.diverts := s.reg.diverts.eraseP (isStray number) })
  else .code .notFound s

/-- RELEASE_STRAY (R41). -/
def execReleaseStray (tag : Byte) (body : List Byte) (s : State) : Host.Outcome State Fault Refusal :=
  .next (takeFrame 0x33 tag body releaseStrayBody s)

/-! ### ReadDivertList (R42) -/

/-- R42: ReadDivertList. -/
def readDivertListBody (body : List Byte) (s : State) : Answer :=
  let start := fieldAt body 0 1
  let count := fieldAt body 1 1
  let held := toBytes 1 s.reg.diverts.length
  if 1 ≤ count ∧ count ≤ 8 then .mk' .ok (held ++ ((s.reg.diverts.drop start).take count).flatMap divertBytes) s
  else .mk' .badValue held s

/-- READ_DIVERT_LIST (R42). -/
def execReadDivertList (tag : Byte) (body : List Byte) (s : State) : Host.Outcome State Fault Refusal :=
  .next (takeFrame 0x34 tag body readDivertListBody s)

/-! ### QueryPiece (R43) -/

/-- The place's code: BELOW, WITHIN, ABOVE. -/
def placeCode : Place → Nat
  | .below => 0 | .within => 1 | .above => 2

/-- R43: the holder of a HELD piece: QUEUE with the position, or SET with the slot. -/
def State.holderBytes (s : State) (p : Nat) : List Byte :=
  match s.queuePosition p, s.holder p with
  | some j, _ => toBytes 1 0 ++ toBytes 1 j
  | none, some i => toBytes 1 1 ++ toBytes 1 i.val
  | none, none => absentBytes 2

/-- R43: the stage of a set, with the position for ON_TRACK. -/
def stageBytes (st : Stage) : List Byte :=
  toBytes 1 (stageCode st) ++ (match st with | .onTrack p => toBytes 1 p.val | _ => absent1)

/-- R43: stage, faults and results of the set that holds a piece. -/
def setFields (r : SetRecord) : List Byte :=
  stageBytes r.stage ++ toBytes 4 r.faults.toNat ++ optBytes 1 r.lastIndex ++ optBytes 1 r.lastWrap ++
    optBytes 2 r.heff ++ optBytes 2 r.caliper

/-- R43: the number of a piece's MATCHED divert entry. -/
def State.divertNumber (s : State) (p : Nat) : Option Nat :=
  (s.reg.diverts.find? fun e => e.kind == .matched && e.piece == some p).map DivertEntry.number

/-- R43: the fields for a piece of an open job. -/
def State.queryFields (s : State) (p : Nat) : List Byte :=
  match s.place p with
  | .within =>
    let st := s.pieceState p
    let inQueue := (s.queuePosition p).isSome
    toBytes 1 (placeCode .within) ++ toBytes 1 (pieceStateCode st) ++
      (if st = .held then s.holderBytes p else absentBytes 2) ++
      (match (if st = .held ∧ !inQueue then s.setAt? (s.holder p) else none) with
        | some r => setFields r
        | none => absentBytes 12) ++
      (if st = .diverted then optBytes 2 (s.divertNumber p) else absentBytes 2)
  | place => toBytes 1 (placeCode place) ++ absentBytes 17

/-- R43: QueryPiece. -/
def queryPieceBody (body : List Byte) (s : State) : Answer :=
  let p := fieldAt body 0 3
  let base := toBytes 3 s.reg.base
  if p = 0 then .mk' .badValue (absentBytes 18 ++ base) s
  else if s.jobOpen then .mk' .ok (s.queryFields p ++ base) s
  else .mk' .notFound (absentBytes 18 ++ base) s

/-- QUERY_PIECE (R43). -/
def execQueryPiece (tag : Byte) (body : List Byte) (s : State) : Host.Outcome State Fault Refusal :=
  .next (takeFrame 0x36 tag body queryPieceBody s)

end Sys2Proof.Machine
end

