-- ==== Sys2Proof/Machine/SetupCommands.lean ====
section
/-! DEFINITION. The meanings of the Setup Store's rows: Configure, WriteTable, ReadTable and SetLock (chapter 10). -/

namespace Sys2Proof.Machine

/-! ### Locks (R179 to R181) -/

/-- R179: whether a lock mode allows a write, and a change of the mode. -/
def lockAllows (mode : LockMode) (key : KeyPosition) (jobOpen : Bool) : Bool :=
  match mode with
  | .open => true
  | .keyed => key == .setup
  | .runLocked => !jobOpen
  | .powerLocked => false

/-- Whether the PLANT group may be written now. -/
def State.plantWritable (s : State) : Bool := lockAllows s.plant.mode s.line.key s.jobOpen

/-- Whether the POSTAL group may be written now. -/
def State.postalWritable (s : State) : Bool := lockAllows s.postal.mode s.line.key s.jobOpen

/-- R178: a revision after a write. -/
def bumpRevision (changed : Bool) (r : Revision) : Revision := if changed then r + 1 else r

/-- A group's lock mode and revision as they stand in a reply. -/
def lockBytes (mode : LockMode) (revision : Revision) : List Byte :=
  toBytes 1 (lockModeCode mode) ++ toBytes 2 revision.toNat

/-- The PLANT group's mode and revision. -/
def State.plantLock (s : State) : List Byte := lockBytes s.plant.mode s.plant.revision

/-- The POSTAL group's mode and revision. -/
def State.postalLock (s : State) : List Byte := lockBytes s.postal.mode s.postal.revision

/-! ### Configure (R156, R176, R177) -/

/-- R177: the relations of a configuration, on its clamped values. -/
def relationsHold (plans : Vector (Option FoldPlan) 8) (c : LineConfig) : Bool :=
  c.windowTop < c.windowBottom && c.windowBottom ≤ c.envelopeDepth &&
    plans.toList.all fun p => match p with | some p => p.offset + p.block ≤ c.sheetLength | none => true

/-- R49: the levels and good counts of the three line monitors adjusted to a configuration. -/
def adjustLineMonitors (c : LineConfig) (s : State) : State :=
  { s with mon.read := adjustLevel c.readMon s.mon.read
           mon.envelope := adjustLevel c.envelopeMon s.mon.envelope
           mon.exit := adjustLevel c.exitMon s.mon.exit }

/-- R177, R178: a configuration stored. -/
def storeConfig (c : LineConfig) (s : State) : State :=
  adjustLineMonitors c
    { s with plant.config := some c, plant.revision := bumpRevision (s.plant.config != some c) s.plant.revision }

/-- R156: an accepted Configure moves STANDBY to READY. -/
def leaveStandby (s : State) : State :=
  if s.line.state = .standby then enterState .ready .configure s else s

/-- R177: the reply to every Configure. -/
def configureReply (result : Result) (s : State) : Answer :=
  .mk' result (configBytes s.plant.config ++ s.plantLock) s

/-- R177: the empty Configure, a confirmation. -/
def confirmConfig (s : State) : Answer :=
  if s.line.state = .standby ∧ s.plant.config = none then configureReply .wrongState s
  else configureReply .ok (leaveStandby s)

/-- R177: a full Configure. -/
def writeConfig (body : List Byte) (s : State) : Answer :=
  if s.plantWritable then
    match parseConfig body with
    | none => configureReply .badValue s
    | some (c, clamped) =>
      if relationsHold s.plant.plans c then
        configureReply (if clamped then .adjusted else .ok) (leaveStandby (storeConfig c s))
      else configureReply .badValue s
  else configureReply .locked s

/-- R156, R177: Configure, taken in STANDBY and READY. -/
def configureBody (body : List Byte) (s : State) : Answer :=
  if s.jobOpen then configureReply .wrongState s
  else if body.isEmpty then confirmConfig s
  else writeConfig body s

/-- CONFIGURE (R177). -/
def execConfigure (tag : Byte) (body : List Byte) (s : State) : Host.Outcome State Fault Refusal :=
  .next (takeFrame 0x10 tag body configureBody s)

/-! ### Tables (R175, R182, 11.6) -/

/-- An entry of one of the nine tables. -/
inductive TableRef where
  | config
  | station (n : StationId)
  | insertClass (i : Fin 16)
  | foldPlan (i : Fin 8)
  | scheme (i : Fin 256)
  | groupLevel (g : Fin 255)
  | weightSteps
  | rates (l : Fin 3)
  | minima
  deriving DecidableEq, Repr

/-- An index below a bound. -/
def indexBelow (n : Nat) (i : Byte) : Option (Fin n) := if h : i.toNat < n then some ⟨i.toNat, h⟩ else none

/-- The entry that a table code and an index name; none when either is outside. -/
def tableRef (table index : Byte) : Option TableRef :=
  match table.toNat with
  | 0 => if index = 0 then some .config else none
  | 1 => (stationOfCode index).map .station
  | 2 => (indexBelow 16 index).map .insertClass
  | 3 => (indexBelow 8 index).map .foldPlan
  | 4 => (indexBelow 256 index).map .scheme
  | 5 => (indexBelow 255 index).map .groupLevel
  | 6 => if index = 0 then some .weightSteps else none
  | 7 => (indexBelow 3 index).map .rates
  | 8 => if index = 0 then some .minima else none
  | _ => none

/-- The entry lengths of WriteTable (11.6); the line configuration has its Configure length. -/
def TableRef.length : TableRef → Nat
  | .config => 85 | .station _ => 15 | .insertClass _ => 1 | .foldPlan _ => 11 | .scheme _ => 8
  | .groupLevel _ => 1 | .weightSteps => 17 | .rates _ => 16 | .minima => 4

/-- The group of a table (R179). -/
def TableRef.group : TableRef → LockGroup
  | .config | .station _ | .insertClass _ | .foldPlan _ => .plant
  | .scheme _ | .groupLevel _ | .weightSteps | .rates _ | .minima => .postal

/-- An entry as it is stored. -/
def State.entryBytes (s : State) : TableRef → List Byte
  | .config => configBytes s.plant.config
  | .station n => stationBytes s.plant.stations[n]
  | .insertClass i => [(s.plant.classes[i]).setWidth 8]
  | .foldPlan i => planBytes s.plant.plans[i]
  | .scheme i => schemeBytes s.postal.scheme[i]
  | .groupLevel g => toBytes 1 (levelCode s.postal.levels[g])
  | .weightSteps => stepsBytes s.postal.steps
  | .rates l => ratesBytes s.postal.rates[l]
  | .minima => toBytes 2 s.postal.minDirect ++ toBytes 2 s.postal.minArea

/-- R182: whether an entry is not set. -/
def State.entryUnset (s : State) : TableRef → Bool
  | .config => s.plant.config.isNone
  | .foldPlan i => s.plant.plans[i].isNone
  | .weightSteps => s.postal.steps.isNone
  | _ => false

/-- The lock mode and revision of a table's group. -/
def State.groupLock (s : State) (t : TableRef) : List Byte :=
  match t.group with
  | .plant => s.plantLock
  | .postal => s.postalLock

/-- Whether a table's group may be written now (R179). -/
def State.groupWritable (s : State) (t : TableRef) : Bool :=
  match t.group with
  | .plant => s.plantWritable
  | .postal => s.postalWritable

/-- R175 step 4: whether the line refuses a table: the weight steps while a job is open, a fold plan while no
configuration is held. -/
def State.tableBlocked (s : State) : TableRef → Bool
  | .weightSteps => s.jobOpen
  | .foldPlan _ => s.plant.config.isNone
  | _ => false

/-- The state after an entry of the PLANT group is stored, the revision following a change (R178). -/
def storePlant (p : Plant) (changed : Bool) (s : State) : State :=
  { s with plant := { p with revision := bumpRevision changed s.plant.revision } }

/-- The state after an entry of the POSTAL group is stored. -/
def storePostal (p : Postal) (changed : Bool) (s : State) : State :=
  { s with postal := { p with revision := bumpRevision changed s.postal.revision } }

/-- R103, R49: a station record stored, and its monitor's level and good count adjusted. -/
def storeStation (n : StationId) (r : StationRecord) (s : State) : State :=
  putMonLevel (.station n) (adjustLevel r.mon (s.monLevel (.station n)))
    (storePlant { s.plant with stations := s.plant.stations.set n.val r n.isLt } (s.plant.stations[n] != r) s)

/-- R124: whether a scheme entry's prefix equals the prefix of another valid entry. -/
def prefixTaken (scheme : Vector (Option SchemeEntry) 256) (i : Fin 256) (e : SchemeEntry) : Bool :=
  (scheme.set i.val none i.isLt).toList.any fun x =>
    match x with
    | some x => schemeDigits x == schemeDigits e
    | none => false

/-- R124: a scheme entry written. -/
def writeScheme (i : Fin 256) (entry : List Byte) (s : State) : Option (State × Bool) :=
  match parseScheme entry with
  | none => none
  | some e =>
    let duplicate := match e with
      | some x => prefixTaken s.postal.scheme i x
      | none => false
    if duplicate then none
    else some (storePostal { s.postal with scheme := s.postal.scheme.set i.val e i.isLt } (s.postal.scheme[i] != e) s, false)

/-- R143: the level minima written. -/
def writeMinima (entry : List Byte) (s : State) : State × Bool :=
  let d := fieldAt entry 0 2
  let a := fieldAt entry 2 2
  let d' := clampTo 1 999 d
  let a' := clampTo 1 999 a
  (storePostal { s.postal with minDirect := d', minArea := a' } (s.postal.minDirect != d' || s.postal.minArea != a') s,
    outside 1 999 d || outside 1 999 a)

/-- R175 steps 6 and 7: an entry written, with whether a field was clamped; none when a field is refused. -/
def writeEntry (t : TableRef) (entry : List Byte) (s : State) : Option (State × Bool) :=
  match t with
  | .config => none
  | .station n => (parseStation entry).map fun r => (storeStation n r.1 s, r.2)
  | .insertClass i =>
    let v := fieldAt entry 0 1
    if v < 64 then
      let c : StationSet := BitVec.ofNat 6 v
      some (storePlant { s.plant with classes := s.plant.classes.set i.val c i.isLt } (s.plant.classes[i] != c) s, false)
    else none
  | .foldPlan i =>
    (parsePlan s.cfg.sheetLength entry).map fun r =>
      (storePlant { s.plant with plans := s.plant.plans.set i.val (some r.1) i.isLt } (s.plant.plans[i] != some r.1) s, r.2)
  | .scheme i => writeScheme i entry s
  | .groupLevel g =>
    match fieldAt entry 0 1 with
    | 0 => some (storePostal { s.postal with levels := s.postal.levels.set g.val .direct g.isLt } (s.postal.levels[g] != .direct) s, false)
    | 1 => some (storePostal { s.postal with levels := s.postal.levels.set g.val .area g.isLt } (s.postal.levels[g] != .area) s, false)
    | _ => none
  | .weightSteps =>
    (parseSteps entry).map fun r => (storePostal { s.postal with steps := some r.1 } (s.postal.steps != some r.1) s, r.2)
  | .rates l =>
    let r := parseRates entry
    some (storePostal { s.postal with rates := s.postal.rates.set l.val r l.isLt } (s.postal.rates[l] != r) s, false)
  | .minima => some (writeMinima entry s)

/-- R175: WriteTable's reply for an entry. -/
def writeReply (result : Result) (table index : Byte) (t : TableRef) (s : State) : Answer :=
  .mk' result ([table, index] ++ s.entryBytes t ++ s.groupLock t) s

/-- An entry of a table, for its length and its group; none for a code that names no table. -/
def tableSample (table : Byte) : Option TableRef :=
  match table.toNat with
  | 0 => some .config
  | 1 => some (.station 0)
  | 2 => some (.insertClass 0)
  | 3 => some (.foldPlan 0)
  | 4 => some (.scheme 0)
  | 5 => some (.groupLevel 0)
  | 6 => some .weightSteps
  | 7 => some (.rates 0)
  | 8 => some .minima
  | _ => none

/-- R175, R182, R188: the entry and the group's lock as the reply of a refused request carries them where no entry is named: the
entry absent in its table's length, the lock mode and revision of the table's group. Where there is no table there is no entry
and no group, and the lock is absent (DESIGN CHOICE, log entry 32). -/
def State.absentEntry (s : State) (table : Byte) : List Byte :=
  match tableSample table with
  | some t => absentBytes t.length ++ s.groupLock t
  | none => absentBytes 3

/-- R175: WriteTable's reply to a request that it does not write: the line configuration as it stands, or no entry. -/
def noTableReply (result : Result) (table index : Byte) (s : State) : Answer :=
  match tableRef table index with
  | some t => writeReply result table index t s
  | none => .mk' result ([table, index] ++ s.absentEntry table) s

/-- R175 steps 3 to 7. -/
def writeTableEntry (table index : Byte) (t : TableRef) (entry : List Byte) (s : State) : Answer :=
  if entry.length ≠ t.length then writeReply .badLength table index t s
  else if s.tableBlocked t then writeReply .wrongState table index t s
  else if !s.groupWritable t then writeReply .locked table index t s
  else
    match writeEntry t entry s with
    | none => writeReply .badValue table index t s
    | some (s', clamped) => writeReply (if clamped then .adjusted else .ok) table index t s'

/-- R175: the table that WriteTable names; the line configuration is none of the eight it writes. -/
def writableRef (table index : Byte) : Option TableRef := if table = 0 then none else tableRef table index

/-- R175: WriteTable's checks in their order. -/
def writeTableBody (body : List Byte) (s : State) : Answer :=
  let table := byteAt body 0
  let index := byteAt body 1
  match writableRef table index with
  | none => noTableReply (if s.line.state = .interlock then .wrongState else .badValue) table index s
  | some t =>
    if s.line.state = .interlock then writeReply .wrongState table index t s
    else writeTableEntry table index t (body.drop 2) s

/-- WRITE_TABLE (R175). -/
def execWriteTable (tag : Byte) (body : List Byte) (s : State) : Host.Outcome State Fault Refusal :=
  .next (takeFrame 0x11 tag body writeTableBody s)

/-- R182: ReadTable. -/
def readTableBody (body : List Byte) (s : State) : Answer :=
  let table := byteAt body 0
  let index := byteAt body 1
  match tableRef table index with
  | none => .mk' .badValue ([table, index] ++ absent1 ++ s.absentEntry table) s
  | some t => .mk' .ok ([table, index] ++ boolByte (s.entryUnset t) ++ s.entryBytes t ++ s.groupLock t) s

/-- READ_TABLE (R182). -/
def execReadTable (tag : Byte) (body : List Byte) (s : State) : Host.Outcome State Fault Refusal :=
  .next (takeFrame 0x12 tag body readTableBody s)

/-! ### SetLock (R180) -/

/-- A group's lock mode. -/
def State.lockMode (s : State) : LockGroup → LockMode
  | .plant => s.plant.mode
  | .postal => s.postal.mode

/-- A group's lock mode written. -/
def putLockMode (g : LockGroup) (m : LockMode) (s : State) : State :=
  match g with
  | .plant => { s with plant.mode := m }
  | .postal => { s with postal.mode := m }

/-- R180: the reply of SetLock: the group, its mode and its revision. -/
def lockReply (result : Result) (g : LockGroup) (s : State) : Answer :=
  .mk' result (toBytes 1 (lockGroupCode g) ++ (match g with | .plant => s.plantLock | .postal => s.postalLock)) s

/-- R180: SetLock in a state that takes it. -/
def changeLock (g : LockGroup) (m : LockMode) (s : State) : Answer :=
  if s.lockMode g = m then lockReply .ok g s
  else if lockAllows (s.lockMode g) s.line.key s.jobOpen then lockReply .ok g (putLockMode g m s)
  else lockReply .locked g s

/-- R173, R180: SetLock. -/
def setLockBody (body : List Byte) (s : State) : Answer :=
  match lockGroupOfCode (byteAt body 0), lockModeOfCode (byteAt body 1) with
  | none, _ => .mk' (if s.line.state = .interlock then .wrongState else .badValue) ([byteAt body 0] ++ absentBytes 3) s
  | some g, none => lockReply (if s.line.state = .interlock then .wrongState else .badValue) g s
  | some g, some m => if s.line.state = .interlock then lockReply .wrongState g s else changeLock g m s

/-- SET_LOCK (R180). -/
def execSetLock (tag : Byte) (body : List Byte) (s : State) : Host.Outcome State Fault Refusal :=
  .next (takeFrame 0x13 tag body setLockBody s)

end Sys2Proof.Machine
end

