-- ==== Sys2Proof/Machine/Receive.lean ====
section
/-! DEFINITION. The receive side of the Message Link (R185, R186): the bytes that arrive, the frames discarded, and a frame
that its CRC makes complete. -/

namespace Sys2Proof.Machine

/-- R187, R188: a complete frame, handed to the request that its TYPE names. -/
def takeComplete (tag type : Byte) (body : List Byte) (s : State) : State :=
  match type.toNat with
  | 0x01 => takeFrame 0x01 tag body identifyBody s
  | 0x02 => takeFrame 0x02 tag body statusBody s
  | 0x03 => takeFrame 0x03 tag body pollBody s
  | 0x10 => takeFrame 0x10 tag body configureBody s
  | 0x11 => takeFrame 0x11 tag body writeTableBody s
  | 0x12 => takeFrame 0x12 tag body readTableBody s
  | 0x13 => takeFrame 0x13 tag body setLockBody s
  | 0x14 => takeFrame 0x14 tag body setRangeFilterBody s
  | 0x20 => takeFrame 0x20 tag body openJobBody s
  | 0x21 => takeFrame 0x21 tag body loadPiecesBody s
  | 0x22 => takeFrame 0x22 tag body startLineBody s
  | 0x23 => takeFrame 0x23 tag body pauseBody s
  | 0x24 => takeFrame 0x24 tag body resumeBody s
  | 0x25 => takeFrame 0x25 tag body stopLineBody s
  | 0x26 => takeFrame 0x26 tag body endJobBody s
  | 0x27 => takeFrame 0x27 tag body abortJobBody s
  | 0x28 => takeFrame 0x28 tag body recoverBody s
  | 0x30 => takeFrame 0x30 tag body stationControlBody s
  | 0x31 => takeFrame 0x31 tag body closeTrayBody s
  | 0x32 => takeFrame 0x32 tag body voidPieceBody s
  | 0x33 => takeFrame 0x33 tag body releaseStrayBody s
  | 0x34 => takeFrame 0x34 tag body readDivertListBody s
  | 0x35 => takeFrame 0x35 tag body fetchBody s
  | 0x36 => takeFrame 0x36 tag body queryPieceBody s
  | 0x3F => takeFrame 0x3F tag body restartBody s
  | _ => takeUnknown tag type s

/-- R185: what the receive side's verdict on the bytes of a frame does: a discarded frame queues a LINK_ERROR, a complete one is
taken. -/
def takeVerdict (s : State) (v : FrameVerdict) : State :=
  match v with
  | .incomplete => s
  | .badLength => queueReport (.linkError .length none none) s
  | .badCrc tag type => queueReport (.linkError .crc (some tag) (some type)) s
  | .complete tag type body => takeComplete tag type body s

/-- R185: bytes arrive at the receive side, after those of the frame that it gathers. -/
def receiveBytes (bytes : List Byte) (s : State) : State :=
  (gatherBytes s.link.receive.bytes bytes).2.foldl takeVerdict
    { s with link.receive := .ofBytes (gatherBytes s.link.receive.bytes bytes).1 }

/-- R186: the frame being gathered is discarded, with a LINK_ERROR that gives its TAG and TYPE where they have arrived; while
hunting nothing happens. -/
def cutFrame (cause : LinkErrorCause) (s : State) : State :=
  match s.link.receive with
  | .hunting => s
  | .gathering bytes => queueReport (.linkError cause bytes[2]? bytes[3]?) { s with link.receive := .hunting }

/-- FRAME_DISCARDED (R185): bytes with a discarded frame among them. -/
def execFrameDiscarded (bytes : List Byte) (s : State) : Host.Outcome State Fault Refusal :=
  .next (receiveBytes bytes s)

/-- FRAMING_ERROR (R186): after the bytes, one without its stop bit. -/
def execFramingError (bytes : List Byte) (s : State) : Host.Outcome State Fault Refusal :=
  .next (cutFrame .framing (receiveBytes bytes s))

/-- LINK_GAP_TIMEOUT (R186): after the bytes, more than 5 ms without one. -/
def execLinkGapTimeout (bytes : List Byte) (s : State) : Host.Outcome State Fault Refusal :=
  .next (cutFrame .gap (receiveBytes bytes s))

end Sys2Proof.Machine
end

