-- ==== Sys2Proof/Machine/SetHandlerCommands.lean ====
section
/-! DEFINITION. The meanings of the Set Handler's rows: releases, the early divert bin, plate moves and folds (chapter 5). -/

namespace Sys2Proof.Machine

/-- RELEASE_START (R84, R85): the Set Handler tests a PENDING release. -/
def execReleaseStart (s : State) : Host.Outcome State Fault Refusal :=
  .next (refresh (releaseAct s))

/-- R86: an early release has completed. -/
def earlyReleased (s : State) : State :=
  let s1 := { s with sets.earlyCount := s.sets.earlyCount + 1, sets.release := .none, sets.accumulator := none }
  match s.sets.accumulator with
  | some i => divertSet i .early s1
  | none => s1

/-- R87, R89: a release forward has completed, and the folder takes the set. -/
def forwardReleased (s : State) : State :=
  let s1 := { s.modSet? s.sets.accumulator (fun r => { r with stage := .folding }) with
    sets.release := .none, sets.accumulator := none, sets.folder := .waiting, sets.folderSet := s.sets.accumulator }
  folderAct s1

/-- RELEASE_COMPLETION (R86, R87), ignored while the release item is NONE or PENDING. -/
def execReleaseCompletion (s : State) : Host.Outcome State Fault Refusal :=
  .next <| react <|
    match s.sets.release with
    | .early _ => earlyReleased s
    | .forward _ => forwardReleased s
    | .none | .pending => s

/-- RELEASE_TIMEOUT (R93). -/
def execReleaseTimeout (s : State) : Host.Outcome State Fault Refusal :=
  .next <| react <| if s.releasing then faultStop .releaseTimeout s else s

/-- R88: the early divert bin has been emptied. -/
def clearEarlyBin (s : State) : State :=
  queueReport (.binChange .early .cleared none none (some s.sets.earlyCount) none none)
    { s with sets.earlyCount := 0, sets.earlyArmed := true }

/-- EARLY_BIN_CLEAR (R88). -/
def execEarlyBinClear (s : State) : Host.Outcome State Fault Refusal :=
  .next (react (clearEarlyBin s))

/-- PLATE_MOVE_START (R89): a WAITING folder compares its plates and starts the move that is needed. -/
def execPlateMoveStart (s : State) : Host.Outcome State Fault Refusal :=
  .next (refresh (if s.folderReady && s.moveNeeded then startMove s else s))

/-- R90: a plate move has completed: each plate named takes its stop, and the folder tests for the fold. -/
def plateMoved (p1 p2 : Option Nat) (s : State) : State :=
  folderAct
    { s with sets.plate1 := if p1.isSome then p1 else s.sets.plate1
             sets.plate2 := if p2.isSome then p2 else s.sets.plate2
             sets.folder := .waiting }

/-- MOVE_COMPLETION (R90), ignored unless the folder is MOVING. -/
def execMoveCompletion (s : State) : Host.Outcome State Fault Refusal :=
  .next <| react <|
    match s.sets.folder with
    | .moving p1 p2 _ => plateMoved p1 p2 s
    | _ => s

/-- MOVE_TIMEOUT (R93). -/
def execMoveTimeout (s : State) : Host.Outcome State Fault Refusal :=
  .next <| react <|
    match s.sets.folder with
    | .moving .. => faultStop .moveTimeout s
    | _ => s

/-- FOLD_START (R90): a WAITING folder tests again. -/
def execFoldStart (s : State) : Host.Outcome State Fault Refusal :=
  .next (refresh (folderAct s))

/-- R91: a fold has completed: the set is BUFFERED in the fold exit buffer. -/
def folded (s : State) : State :=
  { s.modSet? s.sets.folderSet (fun r => { r with stage := .buffered }) with
    sets.buffer := s.sets.folderSet, sets.folderSet := none, sets.folder := .idle }

/-- FOLD_COMPLETION (R91), ignored unless the folder is FOLDING. -/
def execFoldCompletion (s : State) : Host.Outcome State Fault Refusal :=
  .next <| react <|
    match s.sets.folder with
    | .folding _ => folded s
    | _ => s

/-- FOLD_TIMEOUT (R93). -/
def execFoldTimeout (s : State) : Host.Outcome State Fault Refusal :=
  .next <| react <|
    match s.sets.folder with
    | .folding _ => faultStop .foldTimeout s
    | _ => s

end Sys2Proof.Machine
end

