-- ==== Sys2Proof/Machine/Dispatch.lean ====
section
/-! DEFINITION. One arm for each command: its meaning. -/

namespace Sys2Proof.Machine

/-- The effect of a command on everything but the queue of waiting commands. -/
def exec (i : Instr) (s : State) : Host.Outcome State Fault Refusal :=
  match i with
  | .powerOn inp => Sys2Proof.Machine.execPowerOn inp s
  | .resetLine inp => Sys2Proof.Machine.execResetLine inp s
  | .frameDiscarded bytes => Sys2Proof.Machine.execFrameDiscarded bytes s
  | .framingError bytes => Sys2Proof.Machine.execFramingError bytes s
  | .linkGapTimeout bytes => Sys2Proof.Machine.execLinkGapTimeout bytes s
  | .overrun tag type body => Sys2Proof.Machine.execOverrun tag type body s
  | .unknownType tag type body => Sys2Proof.Machine.execUnknownType tag type body s
  | .replySent inp => Sys2Proof.Machine.execReplySent inp s
  | .identify tag body => Sys2Proof.Machine.execIdentify tag body s
  | .status tag body => Sys2Proof.Machine.execStatus tag body s
  | .poll tag body => Sys2Proof.Machine.execPoll tag body s
  | .configure tag body => Sys2Proof.Machine.execConfigure tag body s
  | .writeTable tag body => Sys2Proof.Machine.execWriteTable tag body s
  | .readTable tag body => Sys2Proof.Machine.execReadTable tag body s
  | .setLock tag body => Sys2Proof.Machine.execSetLock tag body s
  | .setRangeFilter tag body => Sys2Proof.Machine.execSetRangeFilter tag body s
  | .openJob tag body => Sys2Proof.Machine.execOpenJob tag body s
  | .loadPieces tag body => Sys2Proof.Machine.execLoadPieces tag body s
  | .startLine tag body => Sys2Proof.Machine.execStartLine tag body s
  | .pause tag body => Sys2Proof.Machine.execPause tag body s
  | .resume tag body => Sys2Proof.Machine.execResume tag body s
  | .stopLine tag body => Sys2Proof.Machine.execStopLine tag body s
  | .endJob tag body => Sys2Proof.Machine.execEndJob tag body s
  | .abortJob tag body => Sys2Proof.Machine.execAbortJob tag body s
  | .recover tag body => Sys2Proof.Machine.execRecover tag body s
  | .restart tag body => Sys2Proof.Machine.execRestart tag body s
  | .stationControlEnable tag body => Sys2Proof.Machine.execStationControlEnable tag body s
  | .stationControlDisable tag body => Sys2Proof.Machine.execStationControlDisable tag body s
  | .closeTray tag body => Sys2Proof.Machine.execCloseTray tag body s
  | .voidPiece tag body => Sys2Proof.Machine.execVoidPiece tag body s
  | .releaseStray tag body => Sys2Proof.Machine.execReleaseStray tag body s
  | .readDivertList tag body => Sys2Proof.Machine.execReadDivertList tag body s
  | .queryPiece tag body => Sys2Proof.Machine.execQueryPiece tag body s
  | .fetchManifestNext tag body => Sys2Proof.Machine.execFetchManifestNext tag body s
  | .fetchManifestRepeat tag body => Sys2Proof.Machine.execFetchManifestRepeat tag body s
  | .readRecord tag mark => Sys2Proof.Machine.execReadRecord tag mark s
  | .sheetEnd tag => Sys2Proof.Machine.execSheetEnd tag s
  | .scanRecord piece => Sys2Proof.Machine.execScanRecord piece s
  | .weightRecord weight => Sys2Proof.Machine.execWeightRecord weight s
  | .instrumentRecordDiscard port bytes => Sys2Proof.Machine.execInstrumentRecordDiscard port bytes s
  | .instrumentGapTimeout port bytes => Sys2Proof.Machine.execInstrumentGapTimeout port bytes s
  | .feedRequest => Sys2Proof.Machine.execFeedRequest s
  | .feedTimeout => Sys2Proof.Machine.execFeedTimeout s
  | .sheetGateOpen => Sys2Proof.Machine.execSheetGateOpen s
  | .sheetIn => Sys2Proof.Machine.execSheetIn s
  | .releaseStart => Sys2Proof.Machine.execReleaseStart s
  | .releaseCompletion => Sys2Proof.Machine.execReleaseCompletion s
  | .releaseTimeout => Sys2Proof.Machine.execReleaseTimeout s
  | .earlyBinClear => Sys2Proof.Machine.execEarlyBinClear s
  | .plateMoveStart => Sys2Proof.Machine.execPlateMoveStart s
  | .moveCompletion => Sys2Proof.Machine.execMoveCompletion s
  | .moveTimeout => Sys2Proof.Machine.execMoveTimeout s
  | .foldStart => Sys2Proof.Machine.execFoldStart s
  | .foldCompletion => Sys2Proof.Machine.execFoldCompletion s
  | .foldTimeout => Sys2Proof.Machine.execFoldTimeout s
  | .indexStart => Sys2Proof.Machine.execIndexStart s
  | .indexCompletion => Sys2Proof.Machine.execIndexCompletion s
  | .indexTimeout => Sys2Proof.Machine.execIndexTimeout s
  | .dropRequest n => Sys2Proof.Machine.execDropRequest n s
  | .dropCompletion n result => Sys2Proof.Machine.execDropCompletion n result s
  | .dropTimeout n => Sys2Proof.Machine.execDropTimeout n s
  | .refillAttemptStart n => Sys2Proof.Machine.execRefillAttemptStart n s
  | .refillCompletion n result => Sys2Proof.Machine.execRefillCompletion n result s
  | .refillTimeout n => Sys2Proof.Machine.execRefillTimeout n s
  | .insertRequest => Sys2Proof.Machine.execInsertRequest s
  | .insertCompletion result => Sys2Proof.Machine.execInsertCompletion result s
  | .insertTimeout => Sys2Proof.Machine.execInsertTimeout s
  | .envelopeRefillStart => Sys2Proof.Machine.execEnvelopeRefillStart s
  | .envelopeRefillCompletion result => Sys2Proof.Machine.execEnvelopeRefillCompletion result s
  | .envelopeRefillTimeout => Sys2Proof.Machine.execEnvelopeRefillTimeout s
  | .scanRequest => Sys2Proof.Machine.execScanRequest s
  | .scanTimeout => Sys2Proof.Machine.execScanTimeout s
  | .weighRequest => Sys2Proof.Machine.execWeighRequest s
  | .weighTimeout => Sys2Proof.Machine.execWeighTimeout s
  | .binAssignment => Sys2Proof.Machine.execBinAssignment s
  | .binEntry bin => Sys2Proof.Machine.execBinEntry bin s
  | .deliveryTimeout => Sys2Proof.Machine.execDeliveryTimeout s
  | .lateBinClear => Sys2Proof.Machine.execLateBinClear s
  | .sortBinClear bin => Sys2Proof.Machine.execSortBinClear bin s
  | .exitClearChange high => Sys2Proof.Machine.execExitClearChange high s
  | .jamSensor zone sensor blocked => Sys2Proof.Machine.execJamSensor zone sensor blocked s
  | .jamTimerExpiry zone sensor => Sys2Proof.Machine.execJamTimerExpiry zone sensor s
  | .keyswitch position => Sys2Proof.Machine.execKeyswitch position s
  | .interlockOpen => Sys2Proof.Machine.execInterlockOpen s
  | .interlockClosed => Sys2Proof.Machine.execInterlockClosed s

end Sys2Proof.Machine
end

