-- ==== Sys2Proof/WellFormed.lean ====
section
/-! DEFINITION. Well-formed commands: operands that a frame, a record or a line of the row's kind can carry. A meaning is
total on ill-formed ones as well (log entry 7). -/

namespace Sys2Proof

/-- 11.1: a body is 0 to 240 bytes. -/
def bodyFits (body : List Byte) : Bool := body.length ≤ 240

/-- 11.6, Type codes: the codes of the 25 requests. -/
def requestTypes : List Nat :=
  [0x01, 0x02, 0x03, 0x10, 0x11, 0x12, 0x13, 0x14, 0x20, 0x21, 0x22, 0x23, 0x24, 0x25, 0x26, 0x27, 0x28,
   0x30, 0x31, 0x32, 0x33, 0x34, 0x35, 0x36, 0x3F]

/-- 11.1: bytes of a frame from its SOF on, at most the whole of the longest frame. -/
def frameStart (bytes : List Byte) : Bool := bytes.head? == some 0xC3 && bytes.length ≤ 246

/-- Nothing gathered, or a frame begun. -/
def gathering (bytes : List Byte) : Bool := bytes.isEmpty || frameStart bytes

/-- R195: bytes of a record from its 0xA5 on. -/
def recordStart (bytes : List Byte) : Bool := bytes.head? == some 0xA5

/-- 11.6: the code of a sort bin, B1 to B10 or BR. -/
def sortBinCode (b : Byte) : Bool := 1 ≤ b.toNat && b.toNat ≤ 11

/-- 11.6: the byte that tells two rows of one request apart, at its place in the body. -/
def bodyByteIs (body : List Byte) (place : Nat) (code : Byte) : Bool := body[place]? == some code

/-- Whether a command is well formed. -/
def WellFormed (i : Instr) : Bool :=
  match i with
  | .powerOn _ => true
  | .resetLine _ => true
  | .frameDiscarded bytes => frameStart bytes
  | .framingError bytes => gathering bytes
  | .linkGapTimeout bytes => gathering bytes
  | .overrun _ _ body => bodyFits body
  | .unknownType _ type body => bodyFits body && !requestTypes.contains type.toNat
  | .replySent _ => true
  | .identify _ body => bodyFits body
  | .status _ body => bodyFits body
  | .poll _ body => bodyFits body
  | .configure _ body => bodyFits body
  | .writeTable _ body => bodyFits body
  | .readTable _ body => bodyFits body
  | .setLock _ body => bodyFits body
  | .setRangeFilter _ body => bodyFits body
  | .openJob _ body => bodyFits body
  | .loadPieces _ body => bodyFits body
  | .startLine _ body => bodyFits body
  | .pause _ body => bodyFits body
  | .resume _ body => bodyFits body
  | .stopLine _ body => bodyFits body
  | .endJob _ body => bodyFits body
  | .abortJob _ body => bodyFits body
  | .recover _ body => bodyFits body
  | .restart _ body => bodyFits body
  | .stationControlEnable _ body => bodyFits body && !bodyByteIs body 1 1
  | .stationControlDisable _ body => bodyFits body && bodyByteIs body 1 1
  | .closeTray _ body => bodyFits body
  | .voidPiece _ body => bodyFits body
  | .releaseStray _ body => bodyFits body
  | .readDivertList _ body => bodyFits body
  | .queryPiece _ body => bodyFits body
  | .fetchManifestNext _ body => bodyFits body && !bodyByteIs body 0 1
  | .fetchManifestRepeat _ body => bodyFits body && bodyByteIs body 0 1
  | .readRecord _ _ => true
  | .sheetEnd _ => true
  | .scanRecord _ => true
  | .weightRecord _ => true
  | .instrumentRecordDiscard _ bytes => recordStart bytes
  | .instrumentGapTimeout _ bytes => recordStart bytes
  | .feedRequest => true
  | .feedTimeout => true
  | .sheetGateOpen => true
  | .sheetIn => true
  | .releaseStart => true
  | .releaseCompletion => true
  | .releaseTimeout => true
  | .earlyBinClear => true
  | .plateMoveStart => true
  | .moveCompletion => true
  | .moveTimeout => true
  | .foldStart => true
  | .foldCompletion => true
  | .foldTimeout => true
  | .indexStart => true
  | .indexCompletion => true
  | .indexTimeout => true
  | .dropRequest _ => true
  | .dropCompletion _ _ => true
  | .dropTimeout _ => true
  | .refillAttemptStart _ => true
  | .refillCompletion _ _ => true
  | .refillTimeout _ => true
  | .insertRequest => true
  | .insertCompletion _ => true
  | .insertTimeout => true
  | .envelopeRefillStart => true
  | .envelopeRefillCompletion _ => true
  | .envelopeRefillTimeout => true
  | .scanRequest => true
  | .scanTimeout => true
  | .weighRequest => true
  | .weighTimeout => true
  | .binAssignment => true
  | .binEntry bin => sortBinCode bin
  | .deliveryTimeout => true
  | .lateBinClear => true
  | .sortBinClear bin => sortBinCode bin
  | .exitClearChange _ => true
  | .jamSensor zone sensor _ => zone.toNat < 4 && 1 ≤ sensor.toNat && sensor.toNat ≤ 4
  | .jamTimerExpiry zone sensor => zone.toNat < 4 && 1 ≤ sensor.toNat && sensor.toNat ≤ 4
  | .keyswitch _ => true
  | .interlockOpen => true
  | .interlockClosed => true

end Sys2Proof
end

