-- ==== Sys2Proof/Safety.lean ====
section
/-! DEFINITION. The terms that claims use: views of the state that say what a command leaves alone, what a sheet, a fold and a
diverted set are, and the invariants that every step keeps. -/

namespace Sys2Proof.Machine

/-! ### Views of the state -/

/-- A jam zone without its timers (R120): its jam, and which sensors are blocked. -/
def JamZone.still (z : JamZone) : JamZone :=
  { z with motion := false, sensors := z.sensors.map fun k => { k with timer := none } }

/-- What no block changes of its own accord: neither a block's test of its conditions (Settle) nor the end of a job writes
any of it. -/
structure Fixed where
  plant : Plant
  postal : Postal
  time : LineTime
  pending : List Instr
  held : Option Held
  receive : Receive
  ports : Ports
  rate : LinkRate
  resetCause : ResetCause
  filter : RangeFilter
  key : KeyPosition
  interlock : InterlockInput
  retained : List ManifestEntry
  readMonitor : MonLevel
  exitMonitor : MonLevel
  stationMonitors : Vector MonLevel 6
  earlyCount : Nat
  lateCount : Nat
  exitClear : Bool
  zones : Vector JamZone 4
  deriving DecidableEq, Repr

/-- The fixed part of a state. -/
def State.fixed (s : State) : Fixed :=
  { plant := s.plant, postal := s.postal, time := s.time, pending := s.pending, held := s.link.held
    receive := s.link.receive, ports := s.ports, rate := s.link.rate, resetCause := s.link.resetCause, filter := s.reg.filter
    key := s.line.key, interlock := s.line.interlock, retained := s.postage.retained, readMonitor := s.mon.read
    exitMonitor := s.mon.exit, stationMonitors := s.mon.stations, earlyCount := s.sets.earlyCount
    lateCount := s.track.lateCount, exitClear := s.track.exitClear, zones := s.track.zones.map JamZone.still }

/-- A set record without the fields that the blocks write of their own accord: its faults, its insert's mark and its bin
assignment. -/
def SetRecord.outline (r : SetRecord) : SetRecord :=
  { r with faults := 0, insertDone := false, bin := none, tray := none, group := none, step := none }

/-- Where the sets are and what the job holds: what the blocks change of their own accord only by ending the job. -/
structure Flow where
  register : Register
  sets : Vector (Option SetRecord) 16
  collation : Collation
  accumulator : Option Slot
  folderSet : Option Slot
  buffer : Option Slot
  carriers : Vector (Option Slot) 12
  transport : Option Slot
  deriving DecidableEq, Repr

/-- The flow of a state: the Piece Register but for its pool, the outlines of the set records, the Collation Unit but for
its sheet in transit, closed tag, starvation flag and feed hold, and the places of the sets. -/
def State.flow (s : State) : Flow :=
  { register := { s.reg with pool := .replicate 16 none }
    sets := s.reg.pool.map (Option.map SetRecord.outline)
    collation := { s.coll with transit := .none, closedTag := none, starvationArmed := true, feedHold := .line }
    accumulator := s.sets.accumulator, folderSet := s.sets.folderSet, buffer := s.sets.buffer
    carriers := s.track.carriers, transport := s.track.transport }

/-- A flow with a set record written. -/
def Flow.put (f : Flow) (i : Slot) (r : Option SetRecord) : Flow :=
  { f with sets := f.sets.set i.val (r.map SetRecord.outline) i.isLt }

/-- A slot holds a set as given, but for what the blocks add to it of their own accord: more faults, a bin assignment. -/
def State.HoldsSet (s : State) (i : Slot) (r : SetRecord) : Prop :=
  ∃ q, s.setAt i = some q ∧ q.outline = r.outline ∧ r.faults &&& q.faults = r.faults

/-- The line is not in SWEEP and its runout does not lead to SWEEP: no block ends the job of its own accord (R138, R169). -/
def State.NoSweep (s : State) : Prop := s.line.state ≠ .sweep ∧ s.line.runoutTarget ≠ .sweep

/-- No block has a stop or a pause to ask for of its own accord: the insert head's pocket and every station hold stock, or are
being refilled, or are out of use (R106, R111). -/
def State.Calm (s : State) : Prop :=
  s.track.head.pocket ≠ .empty ∧ ∀ n : StationId, (s.station n).state ≠ .empty

/-- The line states in which no block starts anything of its own accord. -/
def LineState.atRest : LineState → Bool
  | .standby | .ready | .jobIdle | .paused | .faultStop | .interlock => true
  | _ => false

/-- Every block but the Setup Store right after a reset (R155, R185 and the blocks' own reset rules), with the inputs read. -/
def State.Fresh (t : State) (cause : ResetCause) (inp : Inputs) : Prop :=
  t.line.state = .standby ∧ t.line.key = inp.key ∧ t.line.interlock = inp.interlock ∧
    t.line.returnState = none ∧ t.line.origin = none ∧ t.line.stopReason = none ∧ t.line.runoutTarget = .none ∧
    t.reg = .reset ∧ t.coll = .reset ∧ t.mon = .reset ∧ t.sets = .reset ∧ t.presort = .reset ∧ t.postage = .reset ∧
    t.track = .reset inp ∧ t.ports = .reset ∧ t.time = 0 ∧
    t.link.held = none ∧ t.link.receive = .hunting ∧ t.link.overflow = false ∧
    t.link.rate = inp.rate ∧ t.link.resetCause = cause ∧
    t.link.reports = [{ report := .stateChange .standby .standby cause.reason, repeats := 1, time := 0 }]

/-- The request that a command is, with its TYPE, TAG and BODY (11.6, Type codes). -/
def requestOf (c : Instr) : Option (Byte × Byte × List Byte) :=
  match c with
  | .identify tag body => some (0x01, tag, body)
  | .status tag body => some (0x02, tag, body)
  | .poll tag body => some (0x03, tag, body)
  | .configure tag body => some (0x10, tag, body)
  | .writeTable tag body => some (0x11, tag, body)
  | .readTable tag body => some (0x12, tag, body)
  | .setLock tag body => some (0x13, tag, body)
  | .setRangeFilter tag body => some (0x14, tag, body)
  | .openJob tag body => some (0x20, tag, body)
  | .loadPieces tag body => some (0x21, tag, body)
  | .startLine tag body => some (0x22, tag, body)
  | .pause tag body => some (0x23, tag, body)
  | .resume tag body => some (0x24, tag, body)
  | .stopLine tag body => some (0x25, tag, body)
  | .endJob tag body => some (0x26, tag, body)
  | .abortJob tag body => some (0x27, tag, body)
  | .recover tag body => some (0x28, tag, body)
  | .stationControlEnable tag body => some (0x30, tag, body)
  | .stationControlDisable tag body => some (0x30, tag, body)
  | .closeTray tag body => some (0x31, tag, body)
  | .voidPiece tag body => some (0x32, tag, body)
  | .releaseStray tag body => some (0x33, tag, body)
  | .readDivertList tag body => some (0x34, tag, body)
  | .fetchManifestNext tag body => some (0x35, tag, body)
  | .fetchManifestRepeat tag body => some (0x35, tag, body)
  | .queryPiece tag body => some (0x36, tag, body)
  | .restart tag body => some (0x3F, tag, body)
  | _ => none

/-- The command that an instrument record is, handed to its owning block (R195). -/
def recordCommand : InstrumentEvent → Instr
  | .read tag mark => .readRecord tag mark
  | .sheetEnd tag => .sheetEnd tag
  | .scan piece => .scanRecord piece
  | .weight w => .weightRecord w

/-- The tables of 11.6 by their codes, with the entry length and the lock group of each (R175, R182). -/
def tableShapes : List (Byte × Nat × LockGroup) :=
  [(0x00, 85, .plant), (0x01, 15, .plant), (0x02, 1, .plant), (0x03, 11, .plant), (0x04, 8, .postal), (0x05, 1, .postal),
    (0x06, 17, .postal), (0x07, 16, .postal), (0x08, 4, .postal)]

/-- Whether a command may reset the part: power-on, the reset line, and the last byte of Restart's reply (R183, R184). -/
def resets (c : Instr) (s : State) : Bool :=
  match c with
  | .powerOn _ | .resetLine _ => true
  | .replySent _ => s.link.held.any Held.restart
  | _ => false

/-- The state after a request whose reply is all that it changes. -/
def State.answered (s : State) (tag type : Byte) (result : Result) (fields : List Byte) : State :=
  { s with link.held := some { tag, type, reply := { result, fields }, restart := false } }

/-! ### What a sheet is to the collation (R11, R13, R16) -/

/-- R13: whether a sheet continues the current set: an UNREADABLE one, or one of the job's code and the set's piece. -/
def State.continuesSet (s : State) (sheet : Option Mark) : Bool :=
  s.coll.state == .inSet &&
    match sheet with
    | some m => m.job == s.jobCode && (s.setAt? s.coll.current).bind SetRecord.piece == some m.piece
    | none => true

/-- R11, R13, R16: whether a sheet starts a set: GOOD, with the job's code and index 1, and no sheet of the current set. -/
def State.startsSet (s : State) (sheet : Option Mark) : Bool :=
  !s.continuesSet sheet &&
    match sheet with
    | some m => m.job == s.jobCode && m.index == 1
    | none => false

/-- R11, R16: a sheet that neither continues nor starts a set is a hunt sheet. -/
def State.huntsSheet (s : State) (sheet : Option Mark) : Bool := !s.continuesSet sheet && !s.startsSet sheet

/-- R12: the record of a set that a GOOD sheet starts, with the answer to its match. -/
def State.startRecord (s : State) (m : Mark) (conflict : Bool) (answer : MatchAnswer) : SetRecord :=
  let g := match answer with | .matched rec => rec.sheets | _ => m.count
  { blankSet with
    piece := some m.piece, record := answer.record, governing := g, provingStart := s.line.state == .proving
    lastIndex := some m.index, lastWrap := some m.wrap
    faults := (match answer with
        | .matched rec => (if rec.pull then faultMask .hostPull else 0) |||
            (if rec.sheets = m.count then 0 else faultMask .countMismatch)
        | .unknownPiece => faultMask .unknownPiece
        | .duplicatePiece => faultMask .duplicatePiece) |||
      (if 24 < g then faultMask .longSet else 0) |||
      (if s.reg.filter.excludes m.piece then faultMask .rangeExcluded else 0) |||
      (if conflict then faultMask .markConflict else 0) }

/-- R11, R16: the record of a bundle that a sheet opens. -/
def State.bundleRecord (s : State) (sheet : Option Mark) (conflict : Bool) : SetRecord :=
  { blankSet with
    governing := 24, provingStart := s.line.state == .proving
    faults := faultMask .unattributed ||| (if sheet = none then faultMask .unreadable else 0) |||
      (if conflict then faultMask .markConflict else 0) }

/-! ### The bounds and stops of a fold (R69, R74, R75) -/

/-- R69: whole numbers that are the panel bounds of a folded sheet of a length: the least at which the inner panel stands within
the one outside it, and the greatest that leaves the last panel its least length. -/
def panelBounds (p : FoldPlan) (length lo hi : Int) : Prop :=
  match p.type with
  | .flat => True
  | .single => length + p.nest ≤ 2 * lo ∧ 2 * lo < length + p.nest + 2 ∧ hi = length - p.panelMin
  | .letter => length + 3 * p.nest ≤ 3 * lo ∧ 3 * lo < length + 3 * p.nest + 3 ∧
      2 * hi ≤ length + p.nest - p.panelMin ∧ length + p.nest - p.panelMin < 2 * hi + 2
  | .zig => length + p.nest ≤ 3 * lo ∧ 3 * lo < length + p.nest + 3 ∧
      2 * hi ≤ length + p.nest - p.panelMin ∧ length + p.nest - p.panelMin < 2 * hi + 2

/-- R74: the multiple of 5 nearest to an unrounded stop. -/
def nearestStop (x y : Int) : Prop := y % 5 = 0 ∧ -2 ≤ y - x ∧ y - x ≤ 2

/-- R75: a stop clamped to the plate range. -/
def inPlateRange (y : Int) : Int := max 500 (min 2400 y)

/-! ### Records on the link (R26 to R28) -/

/-- The seven fields of a piece record in a LoadPieces body, as the numbers sent (11.6). -/
structure RawRecord where
  piece : Nat
  sheets : Nat
  insertClass : Nat
  plan : Nat
  flags : Nat
  key : Nat
  deriving DecidableEq, Repr

/-- A record's 11 bytes. -/
def RawRecord.bytes (x : RawRecord) : List Byte :=
  toBytes 3 x.piece ++ toBytes 1 x.sheets ++ toBytes 1 x.insertClass ++ toBytes 1 x.plan ++ toBytes 1 x.flags ++ toBytes 4 x.key

/-- Numbers that their fields can carry. -/
abbrev RawRecord.Fits (x : RawRecord) : Prop :=
  x.piece < 2 ^ 24 ∧ x.sheets < 2 ^ 8 ∧ x.insertClass < 2 ^ 8 ∧ x.plan < 2 ^ 8 ∧ x.flags < 2 ^ 8 ∧ x.key < 2 ^ 32

/-- R26: every field in its range, no flag value undefined; a key of FFFFFFFF is absent. -/
abbrev RawRecord.InRange (x : RawRecord) : Prop :=
  1 ≤ x.piece ∧ 1 ≤ x.sheets ∧ x.sheets ≤ 24 ∧ x.insertClass < 16 ∧ x.plan < 8 ∧ x.flags < 4 ∧ (x.key ≤ 99999 ∨ x.key = 0xFFFFFFFF)

/-- R26: the piece record that fields in range spell. -/
def RawRecord.record (x : RawRecord) : PieceRecord :=
  { piece := x.piece, sheets := x.sheets, insertClass := Fin.ofNat 16 x.insertClass, plan := Fin.ofNat 8 x.plan
    key := if x.key = 0xFFFFFFFF then none else some x.key, pull := x.flags % 2 = 1, reprint := 2 ≤ x.flags }

/-- R28: the code of a record, its checks made in their order. -/
def State.recordCode (s : State) (x : RawRecord) : Result :=
  if 128 ≤ s.reg.queue.length then .queueFull
  else if ¬ x.InRange ∨ s.plant.plans[x.record.plan] = none then .badValue
  else if x.piece < s.reg.base then .duplicatePiece
  else if s.reg.base + 2048 ≤ x.piece then .outOfWindow
  else
    match s.pieceState x.piece with
    | .held | .delivered | .voided => .duplicatePiece
    | .diverted | .missing => if 2 ≤ x.flags then .ok else .notReprint
    | .free => if 2 ≤ x.flags then .notDiverted else .ok

/-- R27, R28, R30: the state with a record accepted: it joins the newest end of the queue, its piece becomes HELD, a DIVERTED piece's
MATCHED entry leaves the divert list, and the low-water flag is armed at the low mark. -/
def State.withRecord (s : State) (r : PieceRecord) : State :=
  { s with
    reg.queue := s.reg.queue ++ [r]
    reg.window := windowSet s.reg.window r.piece .held
    reg.diverts := if s.pieceState r.piece = .diverted then
      s.reg.diverts.filter fun e => !(e.kind == .matched && e.piece == some r.piece) else s.reg.diverts
    reg.lowArmed := s.reg.lowArmed || decide (s.cfg.queueLow ≤ s.reg.queue.length + 1) }

/-- R27: records taken in order up to the first refused: the result code, how many were accepted, and the state they leave. -/
inductive State.Loads : State → List RawRecord → Result → Nat → State → Prop where
  | done (s : State) : State.Loads s [] .ok 0 s
  | refused {s : State} {x : RawRecord} {rest : List RawRecord} :
      s.recordCode x ≠ .ok → State.Loads s (x :: rest) (s.recordCode x) 0 s
  | accepted {s t : State} {x : RawRecord} {rest : List RawRecord} {code : Result} {k : Nat} :
      s.recordCode x = .ok → State.Loads (s.withRecord x.record) rest code k t → State.Loads s (x :: rest) code (k + 1) t

/-! ### Fields refused (R24, R25, R63, R102, R103, R124, R126, R141, R176, R177) -/

/-- R176, 11.6: each field of a Configure body in its order: its width in bytes, the ends of its range, and its default if it has one. -/
def configTable : List (Nat × Nat × Nat × Option Nat) :=
  -- sheet, envelope and window
  [(2, 1400, 4320, none), (2, 1000, 3200, none), (1, 40, 250, none), (2, 50, 300, none), (2, 900, 2500, none), (2, 0, 200, none),
    (2, 0, 2500, none), (2, 0, 2500, none), (2, 0, 5000, none), (2, 500, 20000, none)] ++
  -- the scale and its tolerances, the compare mask
  [(1, 0, 1, some 0), (2, 0, 2000, some 100), (2, 0, 200, some 20), (1, 0, 31, some 31)] ++
  -- hunt count, skip limit, low mark, purge count
  [(1, 1, 64, some 8), (1, 1, 16, some 4), (1, 0, 127, some 32), (1, 0, 15, some 3)] ++
  -- times
  [(2, 100, 10000, some 2000), (2, 100, 5000, some 1000), (2, 100, 5000, some 1500), (2, 200, 10000, some 3000), (2, 200, 5000, some 1000),
    (2, 100, 3000, some 800), (2, 100, 3000, some 1000), (2, 50, 2000, some 300), (2, 100, 5000, some 800), (2, 200, 10000, some 2000)] ++
  List.replicate 4 (2, 50, 10000, some 500) ++
  -- the READ, ENVELOPE and EXIT monitors
  (List.replicate 3 [(1, 1, 15, some 4), (2, 1, 255, some 50), (2, 2, 255, some 16)]).flatten ++
  -- proving, trays, divert bins
  [(2, 0, 255, some 10), (1, 1, 15, some 3), (2, 2, 999, some 300), (4, 10000, 3000000, some 1500000), (2, 1, 250, some 50),
    (2, 1, 250, some 50)]

/-- R176, R177: whether a Configure with these numbers in its fields has one refused: the default marker in a field without a default, or
a scale value or compare mask (the fields at 10 and 13) outside its values. -/
def configRefused (vs : List Nat) : Prop :=
  ∃ (k width lo hi : Nat) (default : Option Nat) (v : Nat), configTable[k]? = some (width, lo, hi, default) ∧ vs[k]? = some v ∧
    ((v = 256 ^ width - 1 ∧ default = none) ∨ (v ≠ 256 ^ width - 1 ∧ (k = 10 ∨ k = 13) ∧ hi < v))

/-- R176, R177: the numbers that a Configure stores: the default for the marker, and the nearer end for a number outside its range. -/
def configStored (vs : List Nat) : List Nat :=
  List.zipWith (fun row v => if v = 256 ^ row.1 - 1 then row.2.2.2.getD v else max row.2.1 (min row.2.2.1 v)) configTable vs

/-- R177: whether a Configure clamps a number of its fields. -/
def configClamps (vs : List Nat) : Prop :=
  ∃ (k width lo hi : Nat) (default : Option Nat) (v : Nat), configTable[k]? = some (width, lo, hi, default) ∧ vs[k]? = some v ∧
    v ≠ 256 ^ width - 1 ∧ (v < lo ∨ hi < v)

/-- R177: the relations that refuse the numbers of a configuration: the window's top edge not below its bottom edge, that edge above the
envelope depth, or the sheet length below the address block of a fold plan that is set. -/
def configUnrelated (plans : Vector (Option FoldPlan) 8) (xs : List Nat) : Prop :=
  xs.getD 7 0 ≤ xs.getD 6 0 ∨ xs.getD 4 0 < xs.getD 7 0 ∨
    ∃ (j : Fin 8) (p : FoldPlan), plans[j] = some p ∧ xs.getD 0 0 < p.offset + p.block

/-- R63, R102, R103, R124, R126, R141: whether WriteTable refuses an entry of a table for a field of it: a station's enabled flag or
trip action, a station set that names more than S1 to S6, a fold plan's type, policy or address block past the sheet length, a valid
scheme entry's prefix or group, a group's level, a step count or bounds that do not rise. That a flag byte other than 0 and 1 is
refused is the model's reading (log entry 11). -/
def State.refusesEntry (s : State) (b : List Byte) : TableRef → Prop
  | .config => True
  | .station _ => 1 < fieldAt b 0 1 ∨ 1 < fieldAt b 9 1
  | .insertClass _ => 64 ≤ fieldAt b 0 1
  | .foldPlan _ => 3 < fieldAt b 0 1 ∨ 1 < fieldAt b 10 1 ∨ s.cfg.sheetLength < fieldAt b 1 2 + max 50 (min 1000 (fieldAt b 3 2))
  | .scheme i => 1 < fieldAt b 0 1 ∨ (fieldAt b 0 1 = 1 ∧
      (fieldAt b 1 1 = 0 ∨ 5 < fieldAt b 1 1 ∨ 254 < fieldAt b 7 1 ∨
        (∃ k < fieldAt b 1 1, fieldAt b (2 + k) 1 < 0x30 ∨ 0x39 < fieldAt b (2 + k) 1) ∨
        ∃ (j : Fin 256) (y : SchemeEntry), j ≠ i ∧ s.postal.scheme[j] = some y ∧
          y.chars.take y.len = (b.drop 2).take (fieldAt b 1 1)))
  | .groupLevel _ => 1 < fieldAt b 0 1
  | .weightSteps => fieldAt b 0 1 = 0 ∨ 8 < fieldAt b 0 1 ∨
      ∃ k, k + 1 < fieldAt b 0 1 ∧ max 1 (fieldAt b (3 + 2 * k) 2) ≤ max 1 (fieldAt b (1 + 2 * k) 2)
  | .rates _ => False
  | .minima => False

/-- A range of a SetRangeFilter body as the numbers sent (11.6). -/
structure RawRange where
  enabled : Nat
  low : Nat
  high : Nat
  deriving DecidableEq, Repr

/-- A range's 7 bytes. -/
def RawRange.bytes (x : RawRange) : List Byte := toBytes 1 x.enabled ++ toBytes 3 x.low ++ toBytes 3 x.high

/-- R25: whether a range is refused (a flag byte other than 0 and 1: log entry 11). -/
def RawRange.Refused (x : RawRange) : Prop := 1 < x.enabled ∨ x.low = 0 ∨ x.high < x.low

/-- An OpenJob body as the numbers sent (11.6). -/
structure RawJob where
  code : Nat
  first : Nat
  mode : Nat
  mask : Nat
  skip : Nat
  deriving DecidableEq, Repr

/-- An OpenJob's 8 bytes. -/
def RawJob.bytes (x : RawJob) : List Byte :=
  toBytes 2 x.code ++ toBytes 3 x.first ++ toBytes 1 x.mode ++ toBytes 1 x.mask ++ toBytes 1 x.skip

/-- Numbers that their fields can carry. -/
abbrev RawJob.Fits (x : RawJob) : Prop :=
  x.code < 2 ^ 16 ∧ x.first < 2 ^ 24 ∧ x.mode < 2 ^ 8 ∧ x.mask < 2 ^ 8 ∧ x.skip < 2 ^ 8

/-- R158: whether a field of an OpenJob is refused; FF stands for the default of the mask and of the skip limit. -/
abbrev RawJob.Refused (x : RawJob) : Prop :=
  x.code = 0 ∨ x.first = 0 ∨ 1 < x.mode ∨ (31 < x.mask ∧ x.mask ≠ 255) ∨ x.skip = 0 ∨ (16 < x.skip ∧ x.skip ≠ 255)

/-- R158: the job that an OpenJob opens, the configuration's defaults in place of the markers. -/
def RawJob.job (x : RawJob) (c : LineConfig) : Job :=
  { code := x.code, first := x.first, mode := if x.mode = 0 then .sequence else .lookup
    mask := if x.mask = 255 then c.maskDefault else BitVec.ofNat 5 x.mask
    skip := if x.skip = 255 then c.skipDefault else x.skip }

/-! ### The low-water flag (R30) -/

/-- R30: whether an event that leaves `after` records in the queue gives QUEUE_LOW: the count falls from the low mark or more to
below it while the flag is armed. -/
def State.runsLow (s : State) (after : Nat) : Bool :=
  decide (s.cfg.queueLow ≤ s.reg.queue.length ∧ after < s.cfg.queueLow) && s.reg.lowArmed

/-! ### Proving and diversion (R38, R58, R60, R161) -/

/-- R58: a completion of a set started in PROVING counts while proving is ACTIVE and the line is in PROVING, or has left PROVING for
PAUSING, PAUSED, FAULT_STOP or INTERLOCK. -/
def State.ProvingCounts (s : State) (r : SetRecord) : Prop :=
  s.mon.proving = .active ∧ r.provingStart = true ∧
    (s.line.state = .proving ∨
      (s.line.state ∈ [LineState.pausing, .paused, .faultStop, .interlock] ∧ s.line.returnState = some .proving))

/-- R166, R21, R60: the line enters RUNOUT with a target and a reason: the return state is absent, the pending pause discarded. An open
bundle is closed to further sheets: with its last decided sheet still in transit, that sheet closes it; otherwise it completes at once. -/
structure State.RunsOut (s : State) (target : RunoutTarget) (reason : Reason) (t : State) : Prop where
  /-- The line. -/
  line : t.line = { s.line with state := .runout, returnState := none, pendingPause := noSections, runoutTarget := target }
  /-- One STATE_CHANGE. -/
  report : t.link = (queueReport (.stateChange .runout s.line.state reason) s).link
  /-- R133: a carrier held at P11 asks for its bin again. -/
  track : t.track = { s.track with assignDue := true }
  /-- With no bundle open nothing of the sets changes. -/
  noBundle : s.coll.state ≠ .hunt ∨ s.coll.current = none → t.coll = s.coll ∧ t.reg = s.reg ∧ t.sets = s.sets
  /-- HUNT is left. -/
  left : ∀ j, s.coll.state = .hunt → s.coll.current = some j →
    t.coll = { s.coll with state := .setStart, current := none, huntCount := 0, transit := t.coll.transit }
  /-- A sheet of the bundle is in transit, and closes it when it is in. -/
  inTransit : ∀ j c, s.coll.state = .hunt → s.coll.current = some j → s.coll.transit = .decided j c →
    t.coll.transit = .decided j true ∧ t.reg = s.reg ∧ t.sets = s.sets
  /-- All decided sheets are in: the bundle completes. -/
  completes : ∀ j r q, s.coll.state = .hunt → s.coll.current = some j → (∀ c, s.coll.transit ≠ .decided j c) →
    s.setAt j = some r → q = s.completedRecord r →
    t.coll.transit = s.coll.transit ∧ t.sets = { s.sets with release := .pending } ∧
      t.reg = { s.reg with
        pool := s.reg.pool.set j.val (some q) j.isLt
        counters := if q.faults = 0 then { s.reg.counters with good := min (s.reg.counters.good + 1) 4294967295 }
          else { s.reg.counters with faulted := min (s.reg.counters.faulted + 1) 4294967295 } }
  /-- The other blocks. -/
  others : { t with line := s.line, link := s.link, track := s.track, coll := s.coll, reg := s.reg, sets := s.sets } = s

/-- R38, R58, R60: the set in a slot is diverted at a point: its entry joins the divert list with the next number, a matched piece
becomes DIVERTED, PIECE_DIVERTED is queued, the counter of the entry's kind rises, and proving counts it when a reason other than
HOST_PULL and RANGE_EXCLUDED stands among its faults. The count that reaches M fails proving, with PROVING_DONE, and takes a line in
PROVING or PAUSING to RUNOUT. The record is then freed. -/
def State.Diverts (s : State) (i : Slot) (r : SetRecord) (point : DivertPoint) (t : State) : Prop :=
  ∃ (kind : DivertKind) (counts fails : Bool) (d x : State),
    kind = (if r.record.isSome then .matched else .stray) ∧
    (counts = true ↔ s.ProvingCounts r ∧ ∃ k, k ≠ .hostPull ∧ k ≠ .rangeExcluded ∧ hasKind r.faults k = true) ∧
    (fails = true ↔ counts = true ∧ s.mon.provingFault + 1 = s.cfg.provingM) ∧
    d = { s with
      reg := { s.reg with
        diverts := s.reg.diverts ++ [{ number := s.reg.nextDivert, kind, piece := r.piece, reasons := r.faults, point
                                       sheets := r.received, time := s.time }]
        nextDivert := if 65535 ≤ s.reg.nextDivert then 1 else s.reg.nextDivert + 1
        window := match r.record, r.piece with
          | some _, some p => windowSet s.reg.window p .diverted
          | _, _ => s.reg.window
        counters := if kind = .matched
          then { s.reg.counters with divertedMatched := min (s.reg.counters.divertedMatched + 1) 4294967295 }
          else { s.reg.counters with divertedStray := min (s.reg.counters.divertedStray + 1) 4294967295 } }
      mon := { s.mon with
        provingFault := if counts then s.mon.provingFault + 1 else s.mon.provingFault
        proving := if fails then .failed else s.mon.proving }
      link := (queueReports ([.pieceDiverted s.reg.nextDivert kind r.piece r.faults point r.received] ++
        (if fails then [.provingDone .failed s.mon.provingGood (s.mon.provingFault + 1) s.cfg.provingP s.cfg.provingM
          (some s.reg.nextDivert)] else [])) s).link } ∧
    (fails = true → s.line.state = .proving ∨ s.line.state = .pausing → d.RunsOut .jobIdle .provingFailed x) ∧
    (fails = false ∨ (s.line.state ≠ .proving ∧ s.line.state ≠ .pausing) → x = d) ∧
    t = { x with reg.pool := x.reg.pool.set i.val none i.isLt }

/-! ### What a stop cuts off (R22, R95, R121) -/

/-- R22, R95, R121: whether the set in a slot has an operation outstanding that a stop cuts off; `feed` says whether the sheet in
transit is among them. -/
def State.Outstanding (s : State) (feed : Bool) (i : Slot) : Prop :=
  (feed = true ∧ ((s.feeding = true ∧ s.coll.current = some i) ∨ ∃ c, s.coll.transit = .decided i c)) ∨
    (s.releasing = true ∧ s.sets.accumulator = some i) ∨
    (s.folderAtRest = false ∧ s.sets.folderSet = some i) ∨
    (s.track.index ≠ none ∧ (s.sets.buffer = some i ∨ ∃ p : Position, s.carrier p = some i)) ∨
    (∃ n : StationId, (s.station n).drop ≠ none ∧ s.carrier (stationPosition n) = some i) ∨
    (s.track.head.insert ≠ none ∧ s.carrier 8 = some i) ∨
    ((s.track.scan ≠ none ∨ s.track.weigh ≠ none) ∧ s.carrier 10 = some i)

/-- R121: the stations that a stop leaves OFF: each in mid-drop with a disable pending, S1 to S6 (their order: log entry 27). -/
def State.disabledByStop (s : State) : List StationId :=
  (List.finRange 6).filter fun n =>
    (s.station n).drop.isSome && (s.station n).pendingDisable && (s.station n).state != .off

/-- R22, R95, R121: what a stop makes of the operations outstanding, the line having entered its state with reports of its own. -/
structure State.CutsOff (s : State) (feed : Bool) (first : List Report) (t : State) : Prop where
  /-- The set of each operation cut off gets DISTURBED. -/
  disturbed : ∀ i, s.Outstanding feed i →
    t.setAt i = (s.setAt i).map fun r => { r with faults := r.faults ||| faultMask .disturbed }
  /-- Nothing at rest is marked. -/
  unmarked : ∀ i, ¬ s.Outstanding feed i → t.setAt i = s.setAt i
  /-- The register but for its pool. -/
  register : { t.reg with pool := s.reg.pool } = s.reg
  /-- R22: an outstanding feed is cancelled, its tag, if fixed, the closed tag. -/
  fed : ∀ tag reads timer, feed = true → s.coll.transit = .feeding tag reads timer →
    t.coll = { s.coll with transit := .none, closedTag := if tag = none then s.coll.closedTag else tag }
  /-- R22: a sheet past its SHEET_END stays in transit. -/
  unfed : feed = false ∨ s.feeding = false → t.coll = s.coll
  /-- R95: the Set Handler. -/
  sets : t.sets = { s.sets with
    release := if s.releasing then .pending else s.sets.release
    folder := if s.folderAtRest then s.sets.folder else .waiting
    plate1 := match s.sets.folder with | .moving (some _) _ _ => none | _ => s.sets.plate1
    plate2 := match s.sets.folder with | .moving _ (some _) _ => none | _ => s.sets.plate2 }
  /-- R121: the Track Controller but for its stations: the sets keep their places. -/
  track : t.track = { s.track with
    index := none, stations := t.track.stations, scan := none, weigh := none, delivery := none
    head := { pocket := if s.track.head.insert = none then s.track.head.pocket else .refilling, insert := none, refill := none } }
  /-- R121: a refill attempt is due again. -/
  refill : ∀ n, (s.station n).drop = none → t.station n = match (s.station n).seq with
    | .running k _ => { s.station n with seq := .waiting k }
    | _ => s.station n
  /-- R121: a drop leaves its station REFILLING with a new sequence. -/
  drop : ∀ n, (s.station n).drop ≠ none → (s.station n).pendingDisable = false →
    t.station n = { s.station n with state := .refilling, drop := none, seq := .waiting 1 }
  /-- R121: a drop with a disable pending leaves its station OFF. -/
  disable : ∀ n, (s.station n).drop ≠ none → (s.station n).pendingDisable = true →
    t.station n = { s.station n with
      state := .off, drop := none, seq := .none, pendingDisable := false
      announce := (s.station n).announce && (s.station n).state == .off }
  /-- The line's reports, and a STATION_CHANGE of each station left OFF. -/
  report : t.link = (queueReports (first ++
    s.disabledByStop.map fun n => .stationChange n (s.station n).state .off .host) s).link
  /-- The other blocks; the line is said where the stop is. -/
  others : { t with line := s.line, link := s.link, reg := s.reg, coll := s.coll, sets := s.sets, track := s.track } = s

/-! ### A set diverted where it stands (R38, R58, R60, R139, R152, R153, R170) -/

/-- R151, R152: a level's totals when a tray leaves them and a corrected tray enters those of its level. -/
def movedTotals (old new : ManifestEntry) (l : Level) (x : LevelTotals) : LevelTotals :=
  let y := if l = old.level then x.remove old.count old.postage else x
  if l = new.level then y.add new.count new.postage else y

/-- R152: a manifest entry as it stands after a piece of a weight and step has been withdrawn from its tray, with the tables as
they stand. -/
def withdrawnEntry (p : Postal) (weight step : Nat) (e : ManifestEntry) : ManifestEntry :=
  let level := if e.count ≤ 1 then .mixed else trayLevel p e.group (e.count - 1)
  let steps := bumpStep e.steps step (· - 1)
  { e with
    count := e.count - 1, weight := e.weight - weight, steps, level
    postage := if e.count ≤ 1 then 0 else ((List.finRange 8).map fun k => steps[k] * (p.levelRates level)[k]).sum
    revision := p.revision, withdrawn := e.withdrawn + 1 }

/-- R139, R152, R153: what withdrawing a set's piece makes of the bins and of the postage unit, and the reports it queues. -/
structure State.Withdraws (s : State) (r : SetRecord) (bins : Vector Bin 11) (postage : Postage) (reports : List Report) : Prop where
  /-- A set without a bin assignment leaves both as they are. -/
  unassigned : r.bin = none → bins = s.presort.bins ∧ postage = s.postage ∧ reports = []
  /-- R139: the other bins stand, and the bin has one piece fewer on its way. -/
  onWay : ∀ b n k, r.bin = some b → r.tray = some n → r.step = some k →
    bins[b].onWay = (s.bin b).onWay - 1 ∧ bins[b].lastTray = (s.bin b).lastTray ∧ ∀ a, a ≠ b → bins[a] = s.bin a
  /-- R139: the piece leaves a tray that is still open; its last piece discards the tray, and the bin becomes FREE. -/
  opened : ∀ b n k y, r.bin = some b → r.tray = some n → r.step = some k → (s.bin b).state = .open y → y.number = n →
    postage = s.postage ∧
    (y.count ≤ 1 → bins[b].state = .free ∧
      reports = [.binChange (.sort b) .free (some n) (some y.group) none none (some .withdraw)]) ∧
    (1 < y.count → reports = [] ∧ bins[b].state = .open { y with
      count := y.count - 1, weight := y.weight - r.postageWeight, steps := bumpStep y.steps k (· - 1) })
  /-- R139: a tray that has closed leaves the bin's state as it is. -/
  stands : ∀ b n k, r.bin = some b → r.tray = some n → r.step = some k → (∀ y, (s.bin b).state = .open y → y.number ≠ n) →
    bins[b].state = (s.bin b).state
  /-- R152: the newest entry of the tray of the open job that is still in the manifest is corrected where it stands. -/
  listed : ∀ b n k older e newer, r.bin = some b → r.tray = some n → r.step = some k →
    (∀ y, (s.bin b).state = .open y → y.number ≠ n) → s.postage.manifest = older ++ e :: newer →
    s.entryOf n e = true → (∀ x ∈ newer, s.entryOf n x = false) →
    reports = [] ∧ postage.manifest = older ++ withdrawnEntry s.postal r.postageWeight k e :: newer ∧
      (∀ l, postage.totals l = movedTotals e (withdrawnEntry s.postal r.postageWeight k e) l (s.postage.totals l)) ∧
      postage.closedPieces = countDown s.postage.closedPieces 1 ∧ postage.withdrawnAfter = s.postage.withdrawnAfter ∧
      postage.retained = s.postage.retained
  /-- R153: an entry that has left the manifest is not corrected; the host is told. -/
  fetched : ∀ b n k, r.bin = some b → r.tray = some n → r.step = some k → (∀ y, (s.bin b).state = .open y → y.number ≠ n) →
    (∀ e ∈ s.postage.manifest, s.entryOf n e = false) →
    postage = { s.postage with
      closedPieces := countDown s.postage.closedPieces 1, withdrawnAfter := countUp s.postage.withdrawnAfter 1 } ∧
    reports = [.trayClosed n b (if b = 10 then 255 else r.group.getD 255) 0 .mixed 0 .withdraw (some k) (some r.postageWeight)]

/-- R38, R58, R60, R139, R170: the set in a slot is diverted where it stands, with ABORTED: its piece is withdrawn from its tray,
its divert entry joins the list, its piece becomes DIVERTED, its reports are queued in order, proving counts it where it counts,
and its record is freed. A slot without a set stays as it is. -/
def State.DivertsInPlace (s : State) (i : Slot) (t : State) : Prop :=
  (s.setAt i = none → t = s) ∧
  ∀ r, s.setAt i = some r →
    ∃ (bins : Vector Bin 11) (postage : Postage) (withdrawal : List Report) (reasons : FaultSet) (kind : DivertKind) (counts fails : Bool),
      s.Withdraws r bins postage withdrawal ∧ reasons = r.faults ||| faultMask .aborted ∧
      kind = (if r.record.isSome then .matched else .stray) ∧
      (counts = true ↔ s.mon.proving = .active ∧ (s.line.state = .paused ∨ s.line.state = .faultStop) ∧
        s.line.returnState = some .proving ∧ r.provingStart = true) ∧
      (fails = true ↔ counts = true ∧ s.mon.provingFault + 1 = s.cfg.provingM) ∧
      t = { s with
        reg := { s.reg with
          pool := s.reg.pool.set i.val none i.isLt
          diverts := s.reg.diverts ++ [{ number := s.reg.nextDivert, kind, piece := r.piece, reasons, point := .inPlace
                                         sheets := r.received, time := s.time }]
          nextDivert := if 65535 ≤ s.reg.nextDivert then 1 else s.reg.nextDivert + 1
          window := match r.record, r.piece with
            | some _, some p => windowSet s.reg.window p .diverted
            | _, _ => s.reg.window
          counters := if kind = .matched
            then { s.reg.counters with divertedMatched := min (s.reg.counters.divertedMatched + 1) 4294967295 }
            else { s.reg.counters with divertedStray := min (s.reg.counters.divertedStray + 1) 4294967295 } }
        presort.bins := bins
        postage := postage
        mon := { s.mon with
          provingFault := if counts then s.mon.provingFault + 1 else s.mon.provingFault
          proving := if fails then .failed else s.mon.proving }
        link := (queueReports (withdrawal ++ [.pieceDiverted s.reg.nextDivert kind r.piece reasons .inPlace r.received] ++
          (if fails then [.provingDone .failed s.mon.provingGood (s.mon.provingFault + 1) s.cfg.provingP s.cfg.provingM
            (some s.reg.nextDivert)] else [])) s).link }

/-- The sets in slots are diverted where they stand, one after another. -/
inductive State.DivertsAll : State → List Slot → State → Prop where
  | none (s : State) : State.DivertsAll s [] s
  | next {s t u : State} {i : Slot} {rest : List Slot} :
      s.DivertsInPlace i t → State.DivertsAll t rest u → State.DivertsAll s (i :: rest) u

/-! ### Invariants -/

/-- Whether no two reports that follow one another in a queue are alike in kind and body (R189). -/
def distinctReports : List ReportEntry → Bool
  | a :: b :: rest => !sameReport a.report b.report && distinctReports (b :: rest)
  | _ => true

/-- R189, R190: the report queue holds at most 64 entries, no report twice in a row, each counted 1 to 255 times. -/
def State.ReportsOk (s : State) : Prop :=
  s.link.reports.length ≤ Config.reportCapacity ∧ distinctReports s.link.reports = true ∧
    ∀ e ∈ s.link.reports, 1 ≤ e.repeats ∧ e.repeats ≤ 255

/-- Whether a piece's record stands in the piece queue. -/
def State.Queued (s : State) (p : Nat) : Prop := ∃ r ∈ s.reg.queue, r.piece = p

/-- Whether the set in a slot holds the matched record of a piece. -/
def State.Holds (s : State) (i : Slot) (p : Nat) : Prop :=
  ∃ r, s.setAt i = some r ∧ r.record.isSome = true ∧ r.piece = some p

/-- R29, R34 to R38: where each piece of the open job stands. -/
structure State.PiecesOk (s : State) : Prop where
  /-- The window lists each number that is not FREE once, in rising order. -/
  form : windowWf s.reg.window = true
  /-- Every number listed lies in the window (R34). -/
  inWindow : ∀ x ∈ s.reg.window, s.reg.base ≤ x.1 ∧ x.1 < s.reg.base + Config.windowSize
  /-- The base stands at no DELIVERED or VOIDED number, unless at the greatest piece number (R36). -/
  base : (s.pieceState s.reg.base).settled = false ∨ Config.maxPiece ≤ s.reg.base
  /-- No piece is queued twice (R29). -/
  queued : (s.reg.queue.map PieceRecord.piece).Nodup
  /-- The HELD pieces are those queued and those of matched sets (R29). -/
  held : ∀ p, s.pieceState p = .held ↔ s.Queued p ∨ ∃ i, s.Holds i p
  /-- No piece is both queued and in a set (R29). -/
  oneHome : ∀ p i, s.Queued p → ¬ s.Holds i p
  /-- No piece is in two sets (R29). -/
  oneSet : ∀ p i j, s.Holds i p → s.Holds j p → i = j
  /-- A matched set carries its record's piece number (R12, R31). -/
  matched : ∀ i r rec, s.setAt i = some r → r.record = some rec → r.piece = some rec.piece
  /-- The DIVERTED pieces are those with a MATCHED divert entry (R35, R38). -/
  diverted : ∀ p, s.pieceState p = .diverted ↔ ∃ e ∈ s.reg.diverts, e.kind = .matched ∧ e.piece = some p

/-- R29, R46: the piece queue holds at most 128 records and each counter has stopped at 4,294,967,295 or stands below. -/
def State.RegisterOk (s : State) : Prop :=
  s.reg.queue.length ≤ Config.queueCapacity ∧
    s.reg.counters.started ≤ Config.counterMax ∧ s.reg.counters.good ≤ Config.counterMax ∧
    s.reg.counters.faulted ≤ Config.counterMax ∧ s.reg.counters.delivered ≤ Config.counterMax ∧
    s.reg.counters.divertedMatched ≤ Config.counterMax ∧ s.reg.counters.divertedStray ≤ Config.counterMax ∧
    s.reg.counters.missing ≤ Config.counterMax ∧ s.reg.counters.voided ≤ Config.counterMax

/-- R74, R75: a stop on the plates' grid and in their range. -/
def stopOk (x : Nat) : Prop := 500 ≤ x ∧ x ≤ 2400 ∧ x % 5 = 0

/-- The stops that a move names. -/
def movingStops : Folder → List Nat
  | .moving p1 p2 _ => p1.toList ++ p2.toList
  | _ => []

/-- The stops that the folder holds: its plate positions and those of a move outstanding. -/
def State.plateStops (s : State) : List Nat :=
  s.sets.plate1.toList ++ s.sets.plate2.toList ++ movingStops s.sets.folder

/-- A stop that a set record of the pool holds. -/
def State.recordStop (s : State) (x : Nat) : Prop :=
  ∃ i r, s.setAt i = some r ∧ (r.stop1 = some x ∨ r.stop2 = some x)

/-- R74, R75: every stop that the folder or a set record holds is one the plates can take. -/
def State.StopsOk (s : State) : Prop :=
  (∀ x ∈ s.plateStops, stopOk x) ∧ ∀ x, s.recordStop x → stopOk x

/-- R48: parameters in force: a threshold and a number of good events to a step of at least 1. -/
def MonParams.Live (p : MonParams) : Prop := 1 ≤ p.d ∧ 1 ≤ p.t

/-- R48, R50, R51: a level below its threshold, and a good count below the events to a step. -/
def MonLevel.Below (p : MonParams) (l : MonLevel) : Prop := l.level < p.t ∧ l.good < p.d

/-- R48, R50: every monitor in force stands below its threshold; the line monitors are in force while a configuration is
held. -/
def State.MonitorsOk (s : State) : Prop :=
  (∀ n : StationId, s.plant.stations[n].mon.Live ∧ s.mon.stations[n].Below s.plant.stations[n].mon) ∧
    ∀ c, s.plant.config = some c →
      c.readMon.Live ∧ c.envelopeMon.Live ∧ c.exitMon.Live ∧
        s.mon.read.Below c.readMon ∧ s.mon.envelope.Below c.envelopeMon ∧ s.mon.exit.Below c.exitMon

/-- R45: the divert list keeps room for every set in flight, and for the set that an outstanding feed may start. -/
def State.ReserveOk (s : State) : Prop :=
  s.reg.diverts.length + s.setsInFlight + (if s.feeding then 1 else 0) ≤ Config.divertCapacity

/-- Whether the line is in SWEEP, or in INTERLOCK having left SWEEP for it. -/
abbrev State.Sweeping (s : State) : Prop :=
  s.line.state = .sweep ∨ (s.line.state = .interlock ∧ s.line.origin = some .sweep)

/-- R45, R137, R148: the manifest holds at most 64 entries, and, but for the sweep, keeps room for the tray of every set in flight that
has no bin, and of the set that an outstanding feed may start. -/
def State.ManifestOk (s : State) : Prop :=
  s.postage.manifest.length ≤ Config.manifestCapacity ∧
    (¬ s.Sweeping → s.postage.manifest.length + s.unassigned + (if s.feeding then 1 else 0) ≤ Config.manifestCapacity)

/-- R120: each zone's motion mark is the zone's motion, and no jam timer runs in a zone out of motion. -/
def State.JamOk (s : State) : Prop :=
  ∀ z : Fin 4, s.track.zones[z].motion = s.zoneMotion z ∧
    (s.zoneMotion z = false → ∀ k : Fin 4, s.track.zones[z].sensors[k].timer = none)

/-- R124: every valid scheme entry has one to five digits and a group below 255, and no two hold the same digits. -/
def SchemeOk (scheme : Vector (Option SchemeEntry) 256) : Prop :=
  (∀ (j : Fin 256) (e : SchemeEntry), scheme[j] = some e →
    1 ≤ e.len ∧ e.len ≤ 5 ∧ e.chars.length = 5 ∧ (e.chars.take e.len).all isDigit = true ∧ e.group ≤ 254) ∧
  ∀ (j k : Fin 256) (x y : SchemeEntry), scheme[j] = some x → scheme[k] = some y →
    x.chars.take x.len = y.chars.take y.len → j = k

/-- R125: whether an entry's digits are the first digits of a five-digit key. -/
def SchemeEntry.Matches (e : SchemeEntry) (key : Nat) : Prop :=
  ∀ m : Nat, m < e.len → e.chars[m]? = some (BitVec.ofNat 8 (0x30 + key / 10 ^ (4 - m) % 10))

/-- R154: the return state, where there is one, is a motion state: PURGE, PROVING, RUNNING or RUNOUT. -/
def State.ReturnOk (s : State) : Prop :=
  ∀ x, s.line.returnState = some x → x ∈ [LineState.purge, .proving, .running, .runout]

/-- 11.6: the reason set of every set record holds none but the 26 fault kinds. -/
def State.FaultsOk (s : State) : Prop := ∀ i r, s.setAt i = some r → r.faults.toNat < 2 ^ 26

/-- R82, R96, R97, R154: where the sets stand: each place holds a set whose record gives the stage of that place, so that no set stands in
two places. -/
structure State.PlacesOk (s : State) : Prop where
  /-- The accumulator's set is being put together, or is complete. -/
  accumulator : ∀ i, s.sets.accumulator = some i → ∃ r, s.setAt i = some r ∧ (r.stage = .accumulating ∨ r.stage = .complete)
  /-- A release has a complete set to release (R84). -/
  release : s.sets.release ≠ .none → ∃ i r, s.sets.accumulator = some i ∧ s.setAt i = some r ∧ r.stage = .complete
  /-- The folder's set (R89). -/
  folder : ∀ i, s.sets.folderSet = some i → ∃ r, s.setAt i = some r ∧ r.stage = .folding
  /-- The set in the fold exit buffer (R91). -/
  buffer : ∀ i, s.sets.buffer = some i → ∃ r, s.setAt i = some r ∧ r.stage = .buffered
  /-- The sets on the carriers (R97). -/
  carrier : ∀ (p : Position) i, s.carrier p = some i → ∃ r, s.setAt i = some r ∧ r.stage = .onTrack p
  /-- The set in the sort transport, which has its bin (R100). -/
  transport : ∀ i, s.track.transport = some i → ∃ r, s.setAt i = some r ∧ r.stage = .inTransport ∧ r.bin ≠ none
  /-- The current set or open bundle, whose sheets are in the accumulator but for one in transit. -/
  current : ∀ i, s.coll.current = some i → (∃ r, s.setAt i = some r ∧ r.stage = .accumulating) ∧
    (s.sets.accumulator = some i ∨ ∃ c, s.coll.transit = .decided i c)
  /-- A decided sheet stands at the gate or passes it (R83), and no set but its own is current. -/
  decided : ∀ i c, s.coll.transit = .decided i c → (∃ r, s.setAt i = some r ∧ r.stage = .accumulating) ∧
    (s.sets.gate = .closed (some i) ∨ s.sets.gate = .passing i) ∧
    (s.coll.current = none ∨ (s.coll.current = some i ∧ c = false))
  /-- With no decided sheet in transit the gate is CLOSED and holds none. -/
  gate : (∀ i c, s.coll.transit ≠ .decided i c) → s.sets.gate = .closed none
  /-- A sheet passes the gate to an empty accumulator or to its own set (R83). -/
  passing : ∀ i, s.sets.gate = .passing i → s.sets.accumulator = none ∨ s.sets.accumulator = some i
  /-- While an index is outstanding the set at P11 has where to go (R99). -/
  index : s.track.index ≠ none → ∀ i r, s.carrier 11 = some i → s.setAt i = some r →
    (r.bin = none ∧ r.faults ≠ 0) ∨ (r.bin ≠ none ∧ s.track.transport = none)
  /-- R116, R135: a set with a bin stands at P11 or in the sort transport, and has its tray and step. -/
  assigned : ∀ i r, s.setAt i = some r → r.bin ≠ none →
    (s.carrier 11 = some i ∨ s.track.transport = some i) ∧ r.tray ≠ none ∧ r.step ≠ none
  /-- R154: in STANDBY, READY, JOB_IDLE and SWEEP every place is empty and nothing is outstanding that moves a set. -/
  rest : s.line.state ∈ [LineState.standby, .ready, .jobIdle, .sweep] ∨
      (s.line.state = .interlock ∧ (s.line.origin = some .jobIdle ∨ s.line.origin = some .sweep)) →
    s.sets.accumulator = none ∧ s.sets.folderSet = none ∧ s.sets.buffer = none ∧ (∀ p : Position, s.carrier p = none) ∧
      s.track.transport = none ∧ s.track.index = none ∧ s.coll.current = none ∧ s.coll.transit = .none

/-- The pieces of the open trays (R136). -/
def State.openPieces (s : State) : Nat :=
  ((List.finRange 11).map fun b => match (s.bin b).state with | .open y => y.count | _ => 0).sum

/-- The pieces on their way, over all eleven bins (R136). -/
def State.piecesOnWay (s : State) : Nat := ((List.finRange 11).map fun b => (s.bin b).onWay).sum

/-- R127 to R131, R135, R136: what holds of the bins and their trays. -/
structure State.TraysOk (s : State) : Prop where
  /-- R156: past STANDBY a configuration is held. -/
  config : s.line.state ≠ .standby → s.plant.config ≠ none
  /-- R176: a tray count capacity is at least 2. -/
  capacity : ∀ c, s.plant.config = some c → 2 ≤ c.trayCount ∧ c.trayCount ≤ 999
  /-- R141: at most eight weight steps. -/
  steps : ∀ bounds, s.postal.steps = some bounds → bounds.length ≤ 8
  /-- R127: with no job open no tray is. -/
  noJob : s.jobOpen = false → ∀ b y, (s.bin b).state ≠ .open y
  /-- R138: the sweep leaves no tray open behind its position. -/
  sweep : ∀ k, s.presort.sweepPosition = some k → s.Sweeping ∧ ∀ (b : BinId) y, b.val < k → (s.bin b).state ≠ .open y
  /-- R128: the trays of B1 to B10 have a group of the scheme, and BR's is residual. -/
  group : ∀ b y, (s.bin b).state = .open y → if b = 10 then y.group = 255 else y.group < 255
  /-- R129: no two bins hold open trays of the same group. -/
  oneGroup : ∀ a b y z, (s.bin a).state = .open y → (s.bin b).state = .open z → y.group = z.group → a = b
  /-- R128, R131: an open tray holds a piece and would have closed at its count capacity; its step counts sum to its count. -/
  count : ∀ b y, (s.bin b).state = .open y → 1 ≤ y.count ∧ y.count < s.cfg.trayCount ∧ y.steps.toList.sum = y.count
  /-- R128, R131: an open tray has room for one piece of the heaviest step. -/
  weight : ∀ b y, (s.bin b).state = .open y → y.weight < s.cfg.trayWeight - ((s.postal.steps.bind List.getLast?).getD 0)
  /-- R135: a bin's pieces on their way are the sets in flight with that bin, two at most. -/
  onWay : ∀ b, (s.bin b).onWay = s.reg.pool.toList.countP (fun r => r.any fun r => r.bin == some b) ∧ (s.bin b).onWay ≤ 2
  /-- R136: the pieces of the open trays and of the trays closed in the job are those delivered and those on their way, while neither
  of the two counts that stop (R46, R151) has stopped. -/
  balance : s.jobOpen = true → s.postage.closedPieces < 4294967295 → s.reg.counters.delivered < 4294967295 →
    s.openPieces + s.postage.closedPieces = s.reg.counters.delivered + s.piecesOnWay

end Sys2Proof.Machine
end

