-- ==== Sys2Proof/Certificates/Slice0/Obligations.lean ====
section
/-! DEFINITION. The statements for the provers, from the numbered rules of the handbook. A statement about a command says
that `exec` answers a next state, and what that state is; what it does not name, the views `fixed` and `flow` of Safety say is
unchanged. -/

open Sys2Proof Sys2Proof.Machine

/-! ### The step and the resets -/

/-- A step takes the command at the front of the queue and answers what it does with the rest of the queue waiting. With no command
waiting the line time goes on by 1 ms and nothing else changes (the model's choice, log entry 3). -/
def Obligations.StepRunsFrontCommand : Prop :=
  (∀ (c : Instr) (rest : List Instr) (s : State),
      step { s with pending := c :: rest } = exec c { s with pending := rest }) ∧
  (∀ s : State, s.pending = [] → step s = .next { s with time := s.time + 1 })

/-- Every command is answered in every state. It leaves the queue of waiting commands, and, where it does not reset the part,
the line time, the link rate and the cause of the last reset. -/
def Obligations.EveryCommandCompletes : Prop :=
  ∀ (c : Instr) (s : State), ∃ t, exec c s = .next t ∧ t.pending = s.pending ∧
    (resets c s = false → t.time = s.time ∧ t.link.rate = s.link.rate ∧ t.link.resetCause = s.link.resetCause)

/-- R183, R185, R189, R34, R37, R46, R48, R104, R127: what the handbook gives the part after power-on. The levels of the input lines that it
reads are the model's choice (log entry 2), and so are the late divert gate at the divert side (log entry 17), the reading of exit-clear at
the reset (log entry 24) and the instrument ports that look for 0xA5 (log entry 33). -/
def Obligations.ResetValues : Prop :=
  State.reset.plant = .powerOn ∧ State.reset.postal = .powerOn ∧ State.reset.Fresh .powerOn inputsAtReset ∧
    State.reset.plant.config = none ∧ State.reset.plant.mode = .open ∧ State.reset.plant.revision = 0 ∧
    (∀ i : Fin 8, State.reset.plant.plans[i] = none) ∧ (∀ i : Fin 16, State.reset.plant.classes[i] = 0) ∧
    (∀ i : Fin 256, State.reset.postal.scheme[i] = none) ∧ (∀ g : Fin 255, State.reset.postal.levels[g] = .area) ∧
    State.reset.postal.steps = none ∧ State.reset.postal.minDirect = 1 ∧ State.reset.postal.minArea = 1 ∧
    State.reset.reg.queue = [] ∧ State.reset.reg.base = 0 ∧ State.reset.reg.nextDivert = 1 ∧
    (∀ n : StationId, (State.reset.station n).state = .off) ∧ (∀ b : BinId, (State.reset.bin b).state = .free) ∧
    State.reset.pending = []

/-- R183, R184, R157: power-on in any state gives every table its contents of R183 and every other block its reset values. The reset line,
and the last byte of a Restart's reply, do the same but keep each POWER_LOCKED group whole. That the late divert gate stands at the divert
side, that exit-clear is read at the reset and that the instrument ports look for 0xA5 is the model's choice (log entries 17, 24 and 33). -/
def Obligations.ResetsRestoreBlocks : Prop :=
  (∀ (inp : Inputs) (s : State), ∃ t, exec (.powerOn inp) s = .next t ∧
      t.plant = .powerOn ∧ t.postal = .powerOn ∧ t.Fresh .powerOn inp ∧ t.pending = s.pending) ∧
  (∀ (inp : Inputs) (s : State),
      (∃ t, exec (.resetLine inp) s = .next t ∧ t.Fresh .resetLine inp ∧
        t.plant = (if s.plant.mode = .powerLocked then s.plant else .powerOn) ∧
        t.postal = (if s.postal.mode = .powerLocked then s.postal else .powerOn) ∧ t.pending = s.pending) ∧
      ∀ h, s.link.held = some h → h.restart = true →
        ∃ t, exec (.replySent inp) s = .next t ∧ t.Fresh .restart inp ∧
          t.plant = (if s.plant.mode = .powerLocked then s.plant else .powerOn) ∧
          t.postal = (if s.postal.mode = .powerLocked then s.postal else .powerOn) ∧ t.pending = s.pending)

/-! ### The Message Link -/

/-- R187, R188, R157: a request taken while none is held is held with its TAG and TYPE until the last byte of its reply; a body of a length
not allowed is answered BAD_LENGTH, an unknown TYPE UNKNOWN_TYPE, and Restart with a job open WRONG_STATE, and nothing else changes. A frame
that completes while a request is held, any row's (log entry 6), is discarded with a LINK_ERROR OVERRUN. -/
def Obligations.RequestsHeldOrDiscarded : Prop :=
  (∀ (inp : Inputs) (s : State),
      (∀ h, s.link.held = some h → h.restart = false → exec (.replySent inp) s = .next { s with link.held := none }) ∧
      (s.link.held = none → exec (.replySent inp) s = .next s)) ∧
  (∀ (tag : Byte) (s : State), s.link.held = none →
      (s.jobOpen = false →
        exec (.restart tag []) s = .next { s with link.held := some ⟨tag, 0x3F, ⟨.ok, []⟩, true⟩ }) ∧
      (s.jobOpen = true → exec (.restart tag []) s = .next (s.answered tag 0x3F .wrongState []))) ∧
  (∀ (s : State) (h : Held), s.link.held = some h →
      (∀ (c : Instr) (type tag : Byte) (body : List Byte), requestOf c = some (type, tag, body) →
        exec c s = .next (queueReport (.linkError .overrun (some tag) (some type)) s)) ∧
      ∀ (tag type : Byte) (body : List Byte),
        exec (.overrun tag type body) s = .next (queueReport (.linkError .overrun (some tag) (some type)) s) ∧
        (isRequestType type = false →
          exec (.unknownType tag type body) s = .next (queueReport (.linkError .overrun (some tag) (some type)) s))) ∧
  (∀ s : State, s.link.held = none →
      (∀ (c : Instr) (type tag : Byte) (body : List Byte), requestOf c = some (type, tag, body) →
        (∃ t r restart, exec c s = .next t ∧ t.link.held = some ⟨tag, type, r, restart⟩) ∧
        (bodyLengthOk type body.length = false → exec c s = .next (s.answered tag type .badLength []))) ∧
      ∀ (tag type : Byte) (body : List Byte), isRequestType type = false →
        exec (.unknownType tag type body) s = .next (s.answered tag type .unknownType []))

/-- R185, R186, R195: the bytes that arrive are taken one after another, after those of the frame or record that is being gathered. A
frame with LEN out of range, with a wrong CRC, with a gap or with a framing error is discarded with one LINK_ERROR that gives its cause,
and the TAG and TYPE where they had been received, and the receive side hunts again from the next byte; a byte without its stop bit, or
a gap, while it hunts is ignored. A correct frame is the request that its TYPE names. A faulty instrument record reaches no block and
nothing is reported, and the port looks for 0xA5 from the next byte; a correct one is its command. That a correct frame or record among
a discard row's bytes is its request or event (log entry 7), that bytes are gathered across rows (log entry 23), and that a wrong record type
is found at its own byte (log entry 33) are the model's choices. -/
def Obligations.DamagedInputDiscarded : Prop :=
  (∀ s : State, s.link.receive = .hunting →
      exec (.frameDiscarded []) s = .next s ∧
      (∀ (b : Byte) (rest : List Byte), b ≠ 0xC3 → exec (.frameDiscarded (b :: rest)) s = exec (.frameDiscarded rest) s) ∧
      (∀ (len : Byte) (rest : List Byte), len.toNat < 2 ∨ 242 < len.toNat →
        exec (.frameDiscarded (0xC3 :: len :: rest)) s =
          exec (.frameDiscarded rest) (queueReport (.linkError .length none none) s)) ∧
      (∀ (tag type hi lo : Byte) (body : List Byte), body.length ≤ 240 →
        crc16 (BitVec.ofNat 8 (body.length + 2) :: tag :: type :: body) ≠ hi ++ lo →
        exec (.frameDiscarded (0xC3 :: BitVec.ofNat 8 (body.length + 2) :: tag :: type :: (body ++ [hi, lo]))) s =
          .next (queueReport (.linkError .crc (some tag) (some type)) s)) ∧
      (∀ (c : Instr) (type tag : Byte) (body : List Byte), requestOf c = some (type, tag, body) → body.length ≤ 240 →
        exec (.frameDiscarded (frameBytes tag type body)) s = exec c s) ∧
      (∀ more : List Byte, frameVerdict (0xC3 :: more) = .incomplete →
        exec (.frameDiscarded (0xC3 :: more)) s = .next { s with link.receive := .gathering (0xC3 :: more) } ∧
        exec (.framingError (0xC3 :: more)) s = .next (queueReport (.linkError .framing more[1]? more[2]?) s) ∧
        exec (.linkGapTimeout (0xC3 :: more)) s = .next (queueReport (.linkError .gap more[1]? more[2]?) s) ∧
        ∀ next : List Byte, exec (.frameDiscarded next) { s with link.receive := .gathering (0xC3 :: more) } =
          exec (.frameDiscarded (0xC3 :: more ++ next)) s) ∧
      exec (.framingError []) s = .next s ∧ exec (.linkGapTimeout []) s = .next s) ∧
  (∀ (s : State) (held : List Byte), s.link.receive = .gathering held → held ≠ [] →
      exec (.framingError []) s = .next (queueReport (.linkError .framing held[2]? held[3]?) { s with link.receive := .hunting }) ∧
      exec (.linkGapTimeout []) s = .next (queueReport (.linkError .gap held[2]? held[3]?) { s with link.receive := .hunting })) ∧
  (∀ (port : InstrumentPort) (s : State), s.ports.bytes port = [] →
      exec (.instrumentRecordDiscard port []) s = .next s ∧
      (∀ (b : Byte) (rest : List Byte), b ≠ 0xA5 →
        exec (.instrumentRecordDiscard port (b :: rest)) s = exec (.instrumentRecordDiscard port rest) s) ∧
      (∀ (type : Byte) (rest : List Byte),
        (port, type) ∉ [(InstrumentPort.reader, (0x01 : Byte)), (.reader, 0x02), (.scanner, 0x11), (.scale, 0x21)] →
        exec (.instrumentRecordDiscard port (0xA5 :: type :: rest)) s = exec (.instrumentRecordDiscard port rest) s) ∧
      (∀ (type : Byte) (rest : List Byte), recordLength port type = some (rest.length + 2) →
        statusWrong port (0xA5 :: type :: rest) = false → checkSumOk (type :: rest) = false →
        exec (.instrumentRecordDiscard port (0xA5 :: type :: rest)) s = .next s) ∧
      (∀ (bytes : List Byte) (e : InstrumentEvent), parseInstrument port bytes = some e →
        exec (.instrumentRecordDiscard port bytes) s = exec (recordCommand e) s) ∧
      (∀ more : List Byte, recordVerdict port (0xA5 :: more) = .incomplete →
        exec (.instrumentGapTimeout port (0xA5 :: more)) s = .next s)) ∧
  (∀ (port : InstrumentPort) (s : State), exec (.instrumentGapTimeout port []) s = .next { s with ports := s.ports.put port [] })

/-- R192 to R194, 11.6: Identify is answered with the part code 0x4410, the hardware revision, the link rate, the cause of the last reset,
the line time and the six capacities, and Status with the items of one of seven sections, in the bytes of 11.6. Poll with a count of 1 to 8
removes and returns up to that many of the oldest reports, and clears the overflow flag. Nothing else changes. The order and filling of the
bytes are the model's (log entry 12; the attempt of a WAITING sequence absent, log entry 22), and so are, where no order of the text settles
them (log entry 32): a Poll's entries after its numbers and its flag, the items of Status monitor by monitor, station by station, zone by
zone, bin by bin and level by level, the bits of the pending pause, a stop reason of NONE as FF FF FF, the free divert count with no job
open, the overflow flag of a refused Poll, the number sent and no items in a refused Status, and the link rate as a number. -/
def Obligations.ReadingRequestsAnswered : Prop :=
  (∀ (tag : Byte) (s : State), s.link.held = none →
      exec (.identify tag []) s = .next (s.answered tag 0x01 .ok
        ([0x44, 0x10, 0x03] ++ toBytes 4 (linkRateBits s.link.rate) ++ toBytes 1 (resetCauseCode s.link.resetCause) ++
          toBytes 4 s.time.toNat ++ [0x80, 0x08, 0x00, 0x80, 0x10, 0x40, 0x40]))) ∧
  (∀ (tag : Byte) (s : State), s.link.held = none →
      -- 0 LINE
      exec (.status tag [0]) s = .next (s.answered tag 0x02 .ok ([(0 : Byte)] ++ [BitVec.ofNat 8 (lineStateCode s.line.state)] ++
        (match s.line.returnState with
          | some .purge => [0] | some .proving => [1] | some .running => [2] | some .runout => [3] | _ => [0xFF]) ++
        optBytes 1 (s.line.origin.map lineStateCode) ++
        (match s.line.stopReason with
          | none => [0xFF, 0xFF, 0xFF]
          | some r => reasonByte r :: reasonDetail r) ++
        [BitVec.ofNat 8 (runoutTargetCode s.line.runoutTarget),
          (if s.line.pendingPause.feed then 0x01 else 0) ||| (if s.line.pendingPause.set then 0x02 else 0) |||
            (if s.line.pendingPause.track then 0x04 else 0),
          if s.line.purgeHeldDone then 1 else 0, if s.line.key = .run then 0 else 1, if s.line.interlock = .closed then 0 else 1] ++
        toBytes 2 s.jobCode ++ [BitVec.ofNat 8 (lockModeCode s.plant.mode)] ++ toBytes 2 s.plant.revision.toNat ++
        [BitVec.ofNat 8 (lockModeCode s.postal.mode)] ++ toBytes 2 s.postal.revision.toNat ++ toBytes 4 s.time.toNat ++
        [BitVec.ofNat 8 s.link.reports.length, if s.link.overflow then 1 else 0])) ∧
      -- 1 JOB
      exec (.status tag [1]) s = .next (s.answered tag 0x02 .ok ([(1 : Byte)] ++
        (match s.reg.job with
          | none => [(0 : Byte), 0, 0, 0, 0, 0xFF, 0xFF, 0xFF]
          | some j => toBytes 2 j.code ++ toBytes 3 j.first ++
              [if j.mode = .sequence then 0 else 1, j.mask.setWidth 8, BitVec.ofNat 8 j.skip]) ++
        [if s.reg.filter.sense = .inside then (0 : Byte) else 1] ++
        ((List.finRange 4).flatMap fun k => [if s.reg.filter.ranges[k].enabled then (1 : Byte) else 0] ++
          toBytes 3 s.reg.filter.ranges[k].low ++ toBytes 3 s.reg.filter.ranges[k].high) ++
        toBytes 3 s.reg.base ++ [BitVec.ofNat 8 s.reg.queue.length, BitVec.ofNat 8 s.setsInFlight, BitVec.ofNat 8 s.unassigned,
          BitVec.ofNat 8 (128 - s.reg.diverts.length), BitVec.ofNat 8 (64 - s.postage.manifest.length)] ++
        toBytes 4 s.reg.counters.started ++ toBytes 4 s.reg.counters.good ++ toBytes 4 s.reg.counters.faulted ++
        toBytes 4 s.reg.counters.delivered ++ toBytes 4 s.reg.counters.divertedMatched ++
        toBytes 4 s.reg.counters.divertedStray ++ toBytes 4 s.reg.counters.missing ++ toBytes 4 s.reg.counters.voided)) ∧
      -- 2 FLOW
      exec (.status tag [2]) s = .next (s.answered tag 0x02 .ok ([(2 : Byte)] ++
        [BitVec.ofNat 8 (collStateCode s.coll.state), BitVec.ofNat 8 s.coll.expectedIndex] ++
        (match s.coll.lastMark with
          | none => [(0 : Byte), 0, 0, 0xFF]
          | some (p, k) => toBytes 3 p ++ toBytes 1 k) ++
        optBytes 1 s.coll.expectedWrap ++ [BitVec.ofNat 8 (feedHoldCode s.coll.feedHold)] ++
        optBytes 1 (s.sets.accumulator.map Fin.val) ++
        (match s.sets.accumulator.bind s.setAt with
          | some r => toBytes 1 r.received
          | none => if s.jobOpen then [(0xFF : Byte)] else [0]) ++
        [match s.sets.release with | .none => 0 | .pending => 1 | .early _ => 2 | .forward _ => 3,
          BitVec.ofNat 8 s.sets.earlyCount] ++
        optBytes 1 (s.plant.config.map LineConfig.earlyCapacity) ++
        [match s.sets.folder with | .idle => (0 : Byte) | .moving .. => 1 | .waiting => 2 | .folding _ => 3] ++
        optBytes 1 (s.sets.folderSet.map Fin.val) ++ optBytes 2 s.sets.plate1 ++ optBytes 2 s.sets.plate2 ++
        optBytes 1 (s.sets.buffer.map Fin.val))) ∧
      -- 3 TRACK
      exec (.status tag [3]) s = .next (s.answered tag 0x02 .ok ([(3 : Byte)] ++
        (([0, 1, 2, 3, 4, 5, 6, 7, 8, 9, 10, 11] : List Position).flatMap fun p => optBytes 1 ((s.carrier p).map Fin.val)) ++
        [if s.track.index = none then 0 else 1, BitVec.ofNat 8 s.track.purgePitches] ++
        (([0, 1, 2, 3, 4, 5] : List StationId).flatMap fun n => [BitVec.ofNat 8 (stationStateCode (s.station n).state),
          match (s.station n).seq with | .running k _ => BitVec.ofNat 8 k | _ => 0xFF]) ++
        [match s.track.head.pocket with | .staged => 0 | .refilling => 1 | .empty => 2, BitVec.ofNat 8 s.track.lateCount] ++
        optBytes 1 (s.plant.config.map LineConfig.lateCapacity) ++ optBytes 1 (s.track.transport.map Fin.val) ++
        (([0, 1, 2, 3] : List (Fin 4)).flatMap fun z => match s.track.zones[z].jammed with
          | none => [(0 : Byte), 0xFF]
          | some k => [(1 : Byte), BitVec.ofNat 8 (k.val + 1)]))) ∧
      -- 4 MONITORS
      exec (.status tag [4]) s = .next (s.answered tag 0x02 .ok ([(4 : Byte)] ++
        ([(s.mon.read, s.plant.config.map LineConfig.readMon), (s.mon.envelope, s.plant.config.map LineConfig.envelopeMon),
            (s.mon.exit, s.plant.config.map LineConfig.exitMon)] ++
          ([0, 1, 2, 3, 4, 5] : List StationId).map fun n => (s.mon.stations[n], some s.plant.stations[n].mon)).flatMap (fun x =>
            [BitVec.ofNat 8 x.1.level, BitVec.ofNat 8 x.1.good] ++ (match x.2 with
              | none => [0xFF, 0xFF, 0xFF]
              | some m => [BitVec.ofNat 8 m.u, BitVec.ofNat 8 m.d, BitVec.ofNat 8 m.t])) ++
        [BitVec.ofNat 8 (provingCode s.mon.proving), BitVec.ofNat 8 s.mon.provingGood, BitVec.ofNat 8 s.mon.provingFault] ++
        optBytes 1 (s.plant.config.map LineConfig.provingP) ++ optBytes 1 (s.plant.config.map LineConfig.provingM))) ∧
      -- 5 BINS
      exec (.status tag [5]) s = .next (s.answered tag 0x02 .ok ([(5 : Byte)] ++
        (([0, 1, 2, 3, 4, 5, 6, 7, 8, 9, 10] : List BinId).flatMap fun b => (match (s.bin b).state with
            | .open y => [(1 : Byte)] ++ toBytes 2 y.number ++ toBytes 1 y.group ++ toBytes 2 y.count ++ toBytes 4 y.weight
            | .swap => [(2 : Byte)] ++ optBytes 2 (s.bin b).lastTray ++ [0xFF] ++ List.replicate 6 (if s.jobOpen then 0xFF else 0)
            | .free => [(0 : Byte), 0xFF, 0xFF, 0xFF] ++ List.replicate 6 (if s.jobOpen then 0xFF else 0)) ++
          [BitVec.ofNat 8 (s.bin b).onWay]) ++
        optBytes 2 s.presort.nextTray)) ∧
      -- 6 POSTAL
      exec (.status tag [6]) s = .next (s.answered tag 0x02 .ok ([(6 : Byte)] ++
        ([Level.direct, .area, .mixed].flatMap fun l => toBytes 4 (s.postage.totals l).trays ++
          toBytes 4 (s.postage.totals l).pieces ++ toBytes 4 (s.postage.totals l).postage) ++
        toBytes 4 s.postage.closedPieces ++ toBytes 4 s.postage.withdrawnAfter ++ [BitVec.ofNat 8 s.postage.manifest.length]))) ∧
  (∀ (tag n : Byte) (s : State), s.link.held = none →
      (∀ len, [25, 77, 20, 38, 50, 123, 45][n.toNat]? = some len →
        ∃ items, statusSection s n = some items ∧ items.length = len ∧
          exec (.status tag [n]) s = .next (s.answered tag 0x02 .ok (n :: items))) ∧
      (7 ≤ n.toNat → exec (.status tag [n]) s = .next (s.answered tag 0x02 .badValue [n]))) ∧
  (∀ (tag n : Byte) (s : State), s.link.held = none →
      (1 ≤ n.toNat → n.toNat ≤ 8 →
        exec (.poll tag [n]) s = .next
          { s with
            link.reports := s.link.reports.drop n.toNat
            link.overflow := false
            link.held := some ⟨tag, 0x03, ⟨.ok, toBytes 1 (s.link.reports.take n.toNat).length ++
              toBytes 1 (s.link.reports.drop n.toNat).length ++ boolByte s.link.overflow ++
              (s.link.reports.take n.toNat).flatMap reportBytes⟩, false⟩ }) ∧
      (n.toNat = 0 ∨ 8 < n.toNat →
        exec (.poll tag [n]) s = .next (s.answered tag 0x03 .badValue
          (toBytes 1 0 ++ toBytes 1 s.link.reports.length ++ boolByte s.link.overflow))))

/-- R189, R190: what queueing a report does. A report of the same kind and body as the newest entry counts it once more, up to 255, and
keeps its line time; another joins as a new entry while the queue holds fewer than 64; and one that finds 64 entries is dropped and sets
the overflow flag. -/
def Obligations.ReportsCoalesceOrJoin : Prop :=
  ∀ (r : Report) (s : State), s.ReportsOk →
    (∀ front e, s.link.reports = front ++ [e] → reportKind e.report = reportKind r → reportBody e.report = reportBody r →
      (queueReport r s).link.reports = front ++ [{ e with repeats := min (e.repeats + 1) 255 }] ∧
        (queueReport r s).link.overflow = s.link.overflow) ∧
    ((∀ e, s.link.reports.getLast? = some e → reportKind e.report ≠ reportKind r ∨ reportBody e.report ≠ reportBody r) →
      (s.link.reports.length < 64 →
        (queueReport r s).link.reports = s.link.reports ++ [⟨r, 1, s.time⟩] ∧
          (queueReport r s).link.overflow = s.link.overflow) ∧
      (s.link.reports.length = 64 →
        (queueReport r s).link.reports = s.link.reports ∧ (queueReport r s).link.overflow = true))

/-- R189, R190, whole machine: whatever command is run, the report queue holds at most 64 entries, no two neighbours with the same
kind and body, and each is counted 1 to 255 times. -/
def Obligations.ReportQueueKept : Prop :=
  ∀ (s t : State), s.ReportsOk → step s = .next t → t.ReportsOk

/-- After power-on the invariants hold that steps keep: those of the report queue, the pieces, the capacities, the stops, the monitors, the
return state, the places of the sets, their fault kinds, the trays, the jam timers and the sort scheme. -/
def Obligations.InvariantsHoldAtReset : Prop :=
  State.reset.ReportsOk ∧ State.reset.PiecesOk ∧ State.reset.RegisterOk ∧ State.reset.StopsOk ∧
    State.reset.MonitorsOk ∧ State.reset.ReserveOk ∧ State.reset.ManifestOk ∧ State.reset.PlacesOk ∧ State.reset.TraysOk ∧
    State.reset.JamOk ∧ SchemeOk State.reset.postal.scheme ∧ State.reset.ReturnOk ∧ State.reset.FaultsOk



/-! ### The Setup Store -/

/-- R176 to R178, R156, R49: a full Configure that passes its checks, taken with no job open, replaces the configuration and raises the PLANT
revision by one if it differs; the line stands in READY, and the line monitors are adjusted. One that is refused changes nothing but its
reply. The fields refused are those of `configRefused`: a marker where there is no default, a scale value or a compare mask outside its
values; every other number is clamped to its range, and the relations are tested on the numbers stored. The empty Configure confirms a
configuration held and writes nothing: it moves STANDBY to READY. A refusal's fields are laid out as log entry 12 says; with no configuration
held its 85 bytes are zero (log entry 32). -/
def Obligations.ConfigureStoresOrRefuses : Prop :=
  (∀ (tag : Byte) (body : List Byte) (c : LineConfig) (clamped : Bool) (s : State),
      s.link.held = none → s.jobOpen = false → body.length = 85 → s.plantWritable = true →
      parseConfig body = some (c, clamped) → relationsHold s.plant.plans c = true →
      ∃ t, exec (.configure tag body) s = .next t ∧ t.line = { s.line with state := .ready } ∧
        t.plant = { s.plant with
          config := some c
          revision := if s.plant.config = some c then s.plant.revision else s.plant.revision + 1 } ∧
        t.mon = { s.mon with
          read := ⟨min s.mon.read.level (c.readMon.t - 1), min s.mon.read.good (c.readMon.d - 1)⟩
          envelope := ⟨min s.mon.envelope.level (c.envelopeMon.t - 1), min s.mon.envelope.good (c.envelopeMon.d - 1)⟩
          exit := ⟨min s.mon.exit.level (c.exitMon.t - 1), min s.mon.exit.good (c.exitMon.d - 1)⟩ } ∧
        t.link.held = some ⟨tag, 0x10, ⟨if clamped then .adjusted else .ok,
          configBytes (some c) ++ lockBytes t.plant.mode t.plant.revision⟩, false⟩ ∧
        t.postal = s.postal ∧ t.reg = s.reg ∧ t.coll = s.coll ∧ t.sets = s.sets ∧ t.track = s.track ∧
        t.presort = s.presort ∧ t.postage = s.postage ∧ t.ports = s.ports ∧ t.time = s.time) ∧
  (∀ (tag : Byte) (body : List Byte) (s : State), s.link.held = none →
      (body.length = 0 ∨ body.length = 85 → s.jobOpen = true →
        exec (.configure tag body) s = .next (s.answered tag 0x10 .wrongState (configBytes s.plant.config ++ s.plantLock))) ∧
      (s.jobOpen = false → body.length = 85 →
        (s.plantWritable = false →
          exec (.configure tag body) s = .next (s.answered tag 0x10 .locked (configBytes s.plant.config ++ s.plantLock))) ∧
        (s.plantWritable = true →
          parseConfig body = none ∨ (∃ c k, parseConfig body = some (c, k) ∧ relationsHold s.plant.plans c = false) →
          exec (.configure tag body) s = .next (s.answered tag 0x10 .badValue (configBytes s.plant.config ++ s.plantLock)))) ∧
      (s.line.state = .standby → s.plant.config = none →
        exec (.configure tag []) s = .next (s.answered tag 0x10 .wrongState (configBytes none ++ s.plantLock))) ∧
      (s.line.state = .ready →
        exec (.configure tag []) s = .next (s.answered tag 0x10 .ok (configBytes s.plant.config ++ s.plantLock))) ∧
      (∀ c, s.line.state = .standby → s.plant.config = some c →
        ∃ t, exec (.configure tag []) s = .next t ∧ t.line.state = .ready ∧ t.plant = s.plant ∧ t.mon = s.mon ∧
          t.link.held = some ⟨tag, 0x10, ⟨.ok, configBytes (some c) ++ s.plantLock⟩, false⟩)) ∧
  -- R176, R177: the values refused, clamped and stored
  (∀ (tag : Byte) (vs : List Nat) (body : List Byte) (s : State), s.link.held = none → s.jobOpen = false → s.plantWritable = true →
      List.Forall₂ (fun row v => v < 256 ^ row.1) configTable vs →
      body = (List.zipWith (fun row v => toBytes row.1 v) configTable vs).flatten →
      (configRefused vs ∨ configUnrelated s.plant.plans (configStored vs) →
        exec (.configure tag body) s = .next (s.answered tag 0x10 .badValue (configBytes s.plant.config ++ s.plantLock))) ∧
      (¬ configRefused vs → ¬ configUnrelated s.plant.plans (configStored vs) →
        ∃ t c code, exec (.configure tag body) s = .next t ∧ t.plant.config = some c ∧ configValues c = configStored vs ∧
          (configClamps vs → code = Result.adjusted) ∧ (¬ configClamps vs → code = Result.ok) ∧
          t.link.held = some ⟨tag, 0x10, ⟨code, configBytes (some c) ++ lockBytes t.plant.mode t.plant.revision⟩, false⟩))

/-- R175, R178, R63, R102, R103, R49: WriteTable writes the entries of the PLANT group's tables: an insert class of S1 to S6, a fold
plan in range, and a station record, every numeric field outside its range clamped to the nearer end and answered ADJUSTED, the station's monitor being
adjusted. The revision rises by one where the stored entry differs. Nothing else changes. -/
def Obligations.PlantEntriesStored : Prop :=
  ∀ (tag : Byte) (s : State), s.link.held = none → s.line.state ≠ .interlock → s.plantWritable = true →
    (∀ (i : Fin 16) (v : StationSet),
      exec (.writeTable tag [0x02, BitVec.ofNat 8 i.val, v.setWidth 8]) s = .next
        { s with
          plant := { s.plant with
            classes := s.plant.classes.set i.val v i.isLt
            revision := if s.plant.classes[i] = v then s.plant.revision else s.plant.revision + 1 }
          link.held := some ⟨tag, 0x11, ⟨.ok, [0x02, BitVec.ofNat 8 i.val, v.setWidth 8] ++
            lockBytes s.plant.mode (if s.plant.classes[i] = v then s.plant.revision else s.plant.revision + 1)⟩, false⟩ }) ∧
    (∀ (i : Fin 8) (p : FoldPlan) (c : LineConfig), s.plant.config = some c → p.offset < 65536 → 50 ≤ p.block → p.block ≤ 1000 →
      p.offset + p.block ≤ c.sheetLength → p.nest ≤ 100 → 200 ≤ p.panelMin → p.panelMin ≤ 1000 → 1 ≤ p.capacity →
      p.capacity ≤ capacityLimit p.type →
      ∃ u, exec (.writeTable tag ([0x03, BitVec.ofNat 8 i.val] ++ planBytes (some p))) s = .next u ∧
      u.plant = { s.plant with
        plans := s.plant.plans.set i.val (some p) i.isLt
        revision := if s.plant.plans[i] = some p then s.plant.revision else s.plant.revision + 1 } ∧
      { u with plant := s.plant, link.held := none } = s ∧ u.link.held.map (fun h => h.reply.result) = some .ok) ∧
    ∀ (n : StationId) (en act : Fin 2) (w cal dt rt u d t : Nat) (r : StationRecord),
      w < 65536 → cal < 65536 → dt < 65536 → rt < 65536 → u < 256 → d < 65536 → t < 65536 →
      r = { enabled := en = 1, weight := min 5000 w, caliper := min 5000 cal
            dropTimeout := max 50 (min 2000 dt), refillTimeout := max 50 (min 2000 rt)
            trip := if act = 0 then .disable else .stop
            mon := ⟨max 1 (min 15 u), max 1 (min 255 d), max 2 (min 255 t)⟩ } →
      exec (.writeTable tag ([0x01, BitVec.ofNat 8 (n.val + 1)] ++ (toBytes 1 en.val ++ toBytes 2 w ++ toBytes 2 cal ++
        toBytes 2 dt ++ toBytes 2 rt ++ toBytes 1 act.val ++ toBytes 1 u ++ toBytes 2 d ++ toBytes 2 t))) s = .next
        { s with
          plant := { s.plant with
            stations := s.plant.stations.set n.val r n.isLt
            revision := if s.plant.stations[n] = r then s.plant.revision else s.plant.revision + 1 }
          mon.stations := s.mon.stations.set n.val
            ⟨min s.mon.stations[n].level (r.mon.t - 1), min s.mon.stations[n].good (r.mon.d - 1)⟩ n.isLt
          link.held := some ⟨tag, 0x11,
            ⟨if r.weight = w ∧ r.caliper = cal ∧ r.dropTimeout = dt ∧ r.refillTimeout = rt ∧ r.mon = ⟨u, d, t⟩ then .ok
              else .adjusted,
            [0x01, BitVec.ofNat 8 (n.val + 1)] ++ stationBytes r ++ lockBytes s.plant.mode
              (if s.plant.stations[n] = r then s.plant.revision else s.plant.revision + 1)⟩, false⟩ }

/-- R175, R178, R124, R126, R141, R143: WriteTable writes the POSTAL group's group levels, scheme entries (whose prefix is no other valid
entry's, and whose digit bytes beyond the prefix are no part of the entry: log entry 25), rates, weight steps (with no job open) and level
minima (clamped to 1 to 999), and raises the POSTAL revision by one where the stored entry differs. Nothing else changes. -/
def Obligations.PostalEntriesStored : Prop :=
  ∀ (stored : SchemeEntry → SchemeEntry), (∀ x, stored x = { x with chars := x.chars.take x.len ++ List.replicate (5 - x.len) 0 }) →
  ∀ (tag : Byte) (s : State), s.link.held = none → s.line.state ≠ .interlock → s.postalWritable = true →
    (∀ (g : Fin 255) (v : Level), v ≠ .mixed → ∃ u, exec (.writeTable tag [0x05, BitVec.ofNat 8 g.val, BitVec.ofNat 8 (levelCode v)]) s = .next u ∧
      u.postal = { s.postal with
        levels := s.postal.levels.set g.val v g.isLt
        revision := if s.postal.levels[g] = v then s.postal.revision else s.postal.revision + 1 } ∧
      { u with postal := s.postal, link.held := none } = s ∧ u.link.held.map (fun h => h.reply.result) = some .ok) ∧
    (∀ (i : Fin 256) (e : Option SchemeEntry),
      (∀ x, e = some x → 1 ≤ x.len ∧ x.len ≤ 5 ∧ x.chars.length = 5 ∧ (x.chars.take x.len).all isDigit = true ∧ x.group ≤ 254 ∧
        ∀ (j : Fin 256) (y : SchemeEntry), j ≠ i → s.postal.scheme[j] = some y → y.chars.take y.len ≠ x.chars.take x.len) →
      ∃ u, exec (.writeTable tag ([0x04, BitVec.ofNat 8 i.val] ++ schemeBytes e)) s = .next u ∧
      u.postal = { s.postal with
        scheme := s.postal.scheme.set i.val (e.map stored) i.isLt
        revision := if s.postal.scheme[i] = e.map stored then s.postal.revision else s.postal.revision + 1 } ∧
      { u with postal := s.postal, link.held := none } = s ∧ u.link.held.map (fun h => h.reply.result) = some .ok) ∧
    (∀ (l : Fin 3) (r : Vector Nat 8), (∀ k : Fin 8, r[k] < 65536) →
      ∃ u, exec (.writeTable tag ([0x07, BitVec.ofNat 8 l.val] ++ ratesBytes r)) s = .next u ∧
      u.postal = { s.postal with
        rates := s.postal.rates.set l.val r l.isLt
        revision := if s.postal.rates[l] = r then s.postal.revision else s.postal.revision + 1 } ∧
      { u with postal := s.postal, link.held := none } = s ∧ u.link.held.map (fun h => h.reply.result) = some .ok) ∧
    (∀ bs : List Nat, 1 ≤ bs.length → bs.length ≤ 8 → bs.Pairwise (· < ·) → (∀ b ∈ bs, 1 ≤ b ∧ b < 65536) → s.jobOpen = false →
      ∃ u, exec (.writeTable tag ([0x06, 0x00] ++ stepsBytes (some bs))) s = .next u ∧
      u.postal = { s.postal with
        steps := some bs
        revision := if s.postal.steps = some bs then s.postal.revision else s.postal.revision + 1 } ∧
      { u with postal := s.postal, link.held := none } = s ∧ u.link.held.map (fun h => h.reply.result) = some .ok) ∧
    (∀ d a : Nat, d < 65536 → a < 65536 →
      ∃ u, exec (.writeTable tag ([0x08, 0x00] ++ (toBytes 2 d ++ toBytes 2 a))) s = .next u ∧
      u.postal = { s.postal with
        minDirect := max 1 (min 999 d), minArea := max 1 (min 999 a)
        revision := if s.postal.minDirect = max 1 (min 999 d) ∧ s.postal.minArea = max 1 (min 999 a) then s.postal.revision
          else s.postal.revision + 1 } ∧
      { u with postal := s.postal, link.held := none } = s ∧
      u.link.held.map (fun h => h.reply.result) = some (if 1 ≤ d ∧ d ≤ 999 ∧ 1 ≤ a ∧ a ≤ 999 then .ok else .adjusted))

/-- R175, R182, R188: WriteTable's checks in their order: INTERLOCK, a table or index that it does not write, a wrong entry length, the
line state, the lock, a refused field; a refused write changes nothing but the reply, which carries the table, the index, the entry and the
lock of the table's group. ReadTable of an entry of the nine tables returns it with its unset mark and its group's lock; any other is refused
with BAD_VALUE. It changes nothing. The fields refused are those of `State.refusesEntry`; a write with none of them is answered OK or
ADJUSTED (a flag byte other than 0 and 1 is refused: log entry 11). Where no entry is named it is absent in its table's length, and where no
table is, so is the lock (the model's choice, log entry 32). -/
def Obligations.TableAccessChecked : Prop :=
  (∀ (tag table index : Byte) (entry : List Byte) (s : State), s.link.held = none → entry.length ≤ 238 →
      (s.line.state = .interlock → ∃ f, exec (.writeTable tag (table :: index :: entry)) s = .next (s.answered tag 0x11 .wrongState f)) ∧
      (s.line.state ≠ .interlock → table = 0 → index = 0 →
        exec (.writeTable tag (table :: index :: entry)) s =
          .next (s.answered tag 0x11 .badValue ([0x00, 0x00] ++ configBytes s.plant.config ++ s.plantLock))) ∧
      (s.line.state ≠ .interlock → tableRef table index = none →
        (∀ len group, (table, len, group) ∈ tableShapes →
          exec (.writeTable tag (table :: index :: entry)) s = .next (s.answered tag 0x11 .badValue
            ([table, index] ++ List.replicate len 0xFF ++ (match group with | .plant => s.plantLock | .postal => s.postalLock)))) ∧
        (8 < table.toNat →
          exec (.writeTable tag (table :: index :: entry)) s =
            .next (s.answered tag 0x11 .badValue [table, index, 0xFF, 0xFF, 0xFF]))) ∧
      (∀ r, s.line.state ≠ .interlock → writableRef table index = some r →
        (entry.length ≠ r.length →
          exec (.writeTable tag (table :: index :: entry)) s =
            .next (s.answered tag 0x11 .badLength ([table, index] ++ s.entryBytes r ++ s.groupLock r))) ∧
        (entry.length = r.length → s.tableBlocked r = true →
          exec (.writeTable tag (table :: index :: entry)) s =
            .next (s.answered tag 0x11 .wrongState ([table, index] ++ s.entryBytes r ++ s.groupLock r))) ∧
        (entry.length = r.length → s.tableBlocked r = false → s.groupWritable r = false →
          exec (.writeTable tag (table :: index :: entry)) s =
            .next (s.answered tag 0x11 .locked ([table, index] ++ s.entryBytes r ++ s.groupLock r))) ∧
        (entry.length = r.length → s.tableBlocked r = false → s.groupWritable r = true → writeEntry r entry s = none →
          exec (.writeTable tag (table :: index :: entry)) s =
            .next (s.answered tag 0x11 .badValue ([table, index] ++ s.entryBytes r ++ s.groupLock r))) ∧
        -- R63, R102, R103, R124, R126, R141: the values refused
        (entry.length = r.length → s.tableBlocked r = false → s.groupWritable r = true →
          (s.refusesEntry entry r → exec (.writeTable tag (table :: index :: entry)) s =
            .next (s.answered tag 0x11 .badValue ([table, index] ++ s.entryBytes r ++ s.groupLock r))) ∧
          (¬ s.refusesEntry entry r → ∃ t code, exec (.writeTable tag (table :: index :: entry)) s = .next t ∧
            (code = Result.ok ∨ code = Result.adjusted) ∧
            t.link.held = some ⟨tag, 0x11, ⟨code, [table, index] ++ t.entryBytes r ++ t.groupLock r⟩, false⟩)))) ∧
  (∀ (tag table index : Byte) (s : State), s.link.held = none →
      (∀ r, tableRef table index = some r →
        exec (.readTable tag [table, index]) s = .next (s.answered tag 0x12 .ok
          ([table, index] ++ boolByte (s.entryUnset r) ++ s.entryBytes r ++ s.groupLock r))) ∧
      (tableRef table index = none →
        (∀ len group, (table, len, group) ∈ tableShapes →
          exec (.readTable tag [table, index]) s = .next (s.answered tag 0x12 .badValue
            ([table, index, 0xFF] ++ List.replicate len 0xFF ++ (match group with | .plant => s.plantLock | .postal => s.postalLock)))) ∧
        (8 < table.toNat →
          exec (.readTable tag [table, index]) s = .next (s.answered tag 0x12 .badValue [table, index, 0xFF, 0xFF, 0xFF, 0xFF]))))

/-- R180: SetLock in every case: INTERLOCK, a group or mode outside its values, the mode held already, and a change tested against
the mode now held. The reply gives the result, the group, its mode after the request and its revision. Nothing else changes. -/
def Obligations.SetLockByModeHeld : Prop :=
  ∀ (tag g m : Byte) (s : State), s.link.held = none →
    (s.line.state = .interlock → ∃ f, exec (.setLock tag [g, m]) s = .next (s.answered tag 0x13 .wrongState f)) ∧
    (s.line.state ≠ .interlock → lockGroupOfCode g = none ∨ lockModeOfCode m = none →
      ∃ f, exec (.setLock tag [g, m]) s = .next (s.answered tag 0x13 .badValue f)) ∧
    ∀ (group : LockGroup) (mode : LockMode), s.line.state ≠ .interlock →
      lockGroupOfCode g = some group → lockModeOfCode m = some mode →
      ∃ t r, exec (.setLock tag [g, m]) s = .next t ∧
        (r = .ok ↔ s.lockMode group = mode ∨ s.lockMode group = .open ∨
          (s.lockMode group = .keyed ∧ s.line.key = .setup) ∨ (s.lockMode group = .runLocked ∧ s.jobOpen = false)) ∧
        (r ≠ .ok → r = .locked) ∧
        t = { putLockMode group (if r = .ok then mode else s.lockMode group) s with
          link.held := some ⟨tag, 0x13, ⟨r, [g] ++ lockBytes (t.lockMode group)
            (match group with | .plant => s.plant.revision | .postal => s.postal.revision)⟩, false⟩ }

/-- R178, R179, whole machine: nothing but power-on changes a POWER_LOCKED group, and no command that does not reset the part changes a
RUN_LOCKED group while a job is open. Where no reset happens, a group's revision rises by one when a command changes its tables and stands
when it does not; only Configure, WriteTable and SetLock, or bytes that complete the frame of one, change the Setup Store. -/
def Obligations.SetupStoreGuarded : Prop :=
  (∀ (c : Instr) (s t : State), exec c s = .next t →
      ((∀ inp, c ≠ .powerOn inp) →
        (s.plant.mode = .powerLocked → t.plant = s.plant) ∧ (s.postal.mode = .powerLocked → t.postal = s.postal)) ∧
      (resets c s = false → s.jobOpen = true →
        (s.plant.mode = .runLocked → t.plant = s.plant) ∧ (s.postal.mode = .runLocked → t.postal = s.postal))) ∧
  (∀ (c : Instr) (s t : State), exec c s = .next t → resets c s = false →
      (t.plant.revision = if { t.plant with mode := s.plant.mode, revision := 0 } = { s.plant with revision := 0 } then s.plant.revision
        else s.plant.revision + 1) ∧
      (t.postal.revision = if { t.postal with mode := s.postal.mode, revision := 0 } = { s.postal with revision := 0 } then s.postal.revision
        else s.postal.revision + 1) ∧
      ((∀ tag body, c ≠ .configure tag body ∧ c ≠ .writeTable tag body ∧ c ≠ .setLock tag body) →
        (∀ bytes, c = .frameDiscarded bytes ∨ c = .framingError bytes ∨ c = .linkGapTimeout bytes →
          ∀ v ∈ (gatherBytes s.link.receive.bytes bytes).2, ∀ tag type body, v ≠ .complete tag type body) →
        t.plant = s.plant ∧ t.postal = s.postal))

/-! ### Formats -/

/-- 11.6, R176: the bytes of a configuration whose fields are in range are a Configure body of 85 bytes that spells it. -/
def Obligations.ConfigurationBytesRead : Prop :=
  ∀ c : LineConfig, List.Forall₂ (fun (f : ConfigField) v => f.lo ≤ v ∧ v ≤ f.hi) configFields (configValues c) →
    (configBytes (some c)).length = 85 ∧ parseConfig (configBytes (some c)) = some (c, false)

/-- 11.6, R24, R26, R63, R103, R124, R141, R143, R158: the bytes of a table entry as ReadTable returns them, of a piece record, of a range
filter and of a job identity, their fields in range, spell the same entry, none of it clamped (of a scheme entry, the digits of its prefix:
log entry 25). -/
def Obligations.EntryBytesRead : Prop :=
  ((∀ r : StationRecord, r.weight ≤ 5000 → r.caliper ≤ 5000 → 50 ≤ r.dropTimeout → r.dropTimeout ≤ 2000 →
      50 ≤ r.refillTimeout → r.refillTimeout ≤ 2000 → 1 ≤ r.mon.u → r.mon.u ≤ 15 → 1 ≤ r.mon.d → r.mon.d ≤ 255 →
      2 ≤ r.mon.t → r.mon.t ≤ 255 → parseStation (stationBytes r) = some (r, false)) ∧
    (∀ (length : Nat) (p : FoldPlan), p.offset < 65536 → 50 ≤ p.block → p.block ≤ 1000 → p.offset + p.block ≤ length →
      p.nest ≤ 100 → 200 ≤ p.panelMin → p.panelMin ≤ 1000 → 1 ≤ p.capacity → p.capacity ≤ capacityLimit p.type →
      parsePlan length (planBytes (some p)) = some (p, false)) ∧
    (∀ e : SchemeEntry, 1 ≤ e.len → e.len ≤ 5 → e.chars.length = 5 → (e.chars.take e.len).all isDigit = true → e.group ≤ 254 →
      parseScheme (schemeBytes (some e)) = some (some { e with chars := e.chars.take e.len ++ List.replicate (5 - e.len) 0 })) ∧
    parseScheme (schemeBytes none) = some none ∧
    (∀ bs : List Nat, 1 ≤ bs.length → bs.length ≤ 8 → bs.Pairwise (· < ·) → (∀ b ∈ bs, 1 ≤ b ∧ b < 65536) →
      parseSteps (stepsBytes (some bs)) = some (bs, false)) ∧
    (∀ r : Vector Nat 8, (∀ k : Fin 8, r[k] < 65536) → parseRates (ratesBytes r) = r)) ∧
  ((∀ r : PieceRecord, 1 ≤ r.piece → r.piece ≤ Config.maxPiece → 1 ≤ r.sheets → r.sheets ≤ 24 →
      (∀ k, r.key = some k → k ≤ 99999) → parsePieceRecord (pieceRecordBytes r) = some r) ∧
    (∀ f : RangeFilter, (∀ k : Fin 4, 1 ≤ f.ranges[k].low ∧ f.ranges[k].low ≤ f.ranges[k].high ∧
      f.ranges[k].high ≤ Config.maxPiece) → parseFilter (filterBytes f) = some f) ∧
    (∀ (c : LineConfig) (j : Job), 1 ≤ j.code → j.code < 65536 → 1 ≤ j.first → j.first ≤ Config.maxPiece →
      1 ≤ j.skip → j.skip ≤ 16 → parseJob c (jobBytes (some j)) = some j))

/-- 11.1, 11.6, R195: the bytes of a frame are taken as complete, with the TAG, TYPE and BODY they carry, and the CRC over "123456789" is
0x29B1. A reply's frame gives the request's TYPE plus 0x80 (modulo 256 for a TYPE of 0x80 or above: log entry 32), its TAG, the result code
and the fields. An instrument record whose bytes after 0xA5 sum to 0 modulo 256 is the event that its port, type and fields spell. -/
def Obligations.FrameAndInstrumentBytesRead : Prop :=
  ((∀ (tag type : Byte) (body : List Byte), body.length ≤ 240 →
      frameVerdict (frameBytes tag type body) = .complete tag type body) ∧
    (∀ h : Held, h.reply.fields.length ≤ 239 →
      frameVerdict h.replyFrame = .complete h.tag (h.type + 0x80) (resultCode h.reply.result :: h.reply.fields)) ∧
    crc16 [0x31, 0x32, 0x33, 0x34, 0x35, 0x36, 0x37, 0x38, 0x39] = 0x29B1) ∧
  (∀ check tag j1 j0 p2 p1 p0 ix ct wr w2 w1 w0 : Byte,
      (checkSumOk [0x01, tag, 0x00, j1, j0, p2, p1, p0, ix, ct, wr, check] = true →
        parseInstrument .reader [0xA5, 0x01, tag, 0x00, j1, j0, p2, p1, p0, ix, ct, wr, check] =
          some (.read tag (some ⟨j1 ++ j0, p2 ++ p1 ++ p0, ix, ct, wr⟩))) ∧
      (checkSumOk [0x01, tag, 0x01, j1, j0, p2, p1, p0, ix, ct, wr, check] = true →
        parseInstrument .reader [0xA5, 0x01, tag, 0x01, j1, j0, p2, p1, p0, ix, ct, wr, check] = some (.read tag none)) ∧
      (checkSumOk [0x02, tag, check] = true → parseInstrument .reader [0xA5, 0x02, tag, check] = some (.sheetEnd tag)) ∧
      (checkSumOk [0x11, 0x00, p2, p1, p0, check] = true →
        parseInstrument .scanner [0xA5, 0x11, 0x00, p2, p1, p0, check] = some (.scan (some (p2 ++ p1 ++ p0)))) ∧
      (checkSumOk [0x11, 0x01, p2, p1, p0, check] = true →
        parseInstrument .scanner [0xA5, 0x11, 0x01, p2, p1, p0, check] = some (.scan none)) ∧
      (checkSumOk [0x21, w2, w1, w0, check] = true →
        parseInstrument .scale [0xA5, 0x21, w2, w1, w0, check] = some (.weight (w2 ++ w1 ++ w0))))



/-! ### The Piece Register -/

/-- R25, R24: SetRangeFilter replaces the whole filter at once when every range is in order, and answers with the filter in force;
an empty body changes nothing, a refused one neither, and STANDBY refuses it. A sense outside its two values is refused, and a range,
enabled or not, with its low bound 0 or above its high bound (or an enabled byte other than 0 and 1: log entry 11). INSIDE excludes a number that lies in an enabled range,
OUTSIDE one that lies in none. -/
def Obligations.RangeFilterReplaced : Prop :=
  (∀ (tag : Byte) (s : State), s.link.held = none →
    (∀ f : RangeFilter, (∀ k : Fin 4, 1 ≤ f.ranges[k].low ∧ f.ranges[k].low ≤ f.ranges[k].high ∧
        f.ranges[k].high ≤ Config.maxPiece) → s.line.state ≠ .standby →
      exec (.setRangeFilter tag (filterBytes f)) s = .next
        { s with reg.filter := f, link.held := some ⟨tag, 0x14, ⟨.ok, filterBytes f⟩, false⟩ }) ∧
    (s.line.state ≠ .standby →
      exec (.setRangeFilter tag []) s = .next (s.answered tag 0x14 .ok (filterBytes s.reg.filter))) ∧
    ∀ body : List Byte,
      (body.length = 0 ∨ body.length = 29 → s.line.state = .standby →
        exec (.setRangeFilter tag body) s = .next (s.answered tag 0x14 .wrongState (filterBytes s.reg.filter))) ∧
      (body.length = 29 → s.line.state ≠ .standby → parseFilter body = none →
        exec (.setRangeFilter tag body) s = .next (s.answered tag 0x14 .badValue (filterBytes s.reg.filter))) ∧
      (body.length ≠ 0 → body.length ≠ 29 → exec (.setRangeFilter tag body) s = .next (s.answered tag 0x14 .badLength []))) ∧
  (∀ (tag : Byte) (sense : Nat) (xs : Vector RawRange 4) (body : List Byte) (s : State), s.link.held = none → s.line.state ≠ .standby →
    sense < 2 ^ 8 → (∀ k : Fin 4, xs[k].enabled < 2 ^ 8 ∧ xs[k].low < 2 ^ 24 ∧ xs[k].high < 2 ^ 24) →
    body = toBytes 1 sense ++ xs.toList.flatMap RawRange.bytes →
    (1 < sense ∨ (∃ k : Fin 4, xs[k].Refused) →
      exec (.setRangeFilter tag body) s = .next (s.answered tag 0x14 .badValue (filterBytes s.reg.filter))) ∧
    (sense ≤ 1 → (∀ k : Fin 4, ¬ xs[k].Refused) → ∃ f : RangeFilter, exec (.setRangeFilter tag body) s = .next
        { s with reg.filter := f, link.held := some ⟨tag, 0x14, ⟨.ok, body⟩, false⟩ } ∧
      (f.sense = .inside ↔ sense = 0) ∧ ∀ k : Fin 4, f.ranges[k] = ⟨xs[k].enabled = 1, xs[k].low, xs[k].high⟩)) ∧
  ∀ (f : RangeFilter) (p : Nat),
    (f.sense = .inside → (f.excludes p = true ↔
      ∃ k : Fin 4, f.ranges[k].enabled = true ∧ f.ranges[k].low ≤ p ∧ p ≤ f.ranges[k].high)) ∧
    (f.sense = .outside → (f.excludes p = true ↔
      ∀ k : Fin 4, f.ranges[k].enabled = true → ¬ (f.ranges[k].low ≤ p ∧ p ≤ f.ranges[k].high)))

/-- R26 to R28, R30: LoadPieces takes its 1 to 20 records in order. Each is checked against the state that those before it leave: a full
queue, a field out of range or an unset plan, the window, the piece's state. A record that passes joins the newest end of the queue, its
piece becomes HELD, a reprinted piece's MATCHED divert entry leaves the list, and the low-water flag is armed at the low mark. The first
refused ends the request, those before it stand, and the reply gives its code, the number accepted, the queue count and the base. In
STANDBY, READY, SWEEP and INTERLOCK no record is examined. (The bytes of the reply, in a refusal too: log entry 12; every block then tests
its conditions, `react`: log entry 4.) -/
def Obligations.LoadPiecesChecksAndStores : Prop :=
  (∀ (tag : Byte) (xs : List RawRecord) (s : State), s.link.held = none → 1 ≤ xs.length → xs.length ≤ 20 → (∀ x ∈ xs, x.Fits) →
      s.line.state ∉ [LineState.standby, .ready, .sweep, .interlock] →
      ∃ (code : Result) (k : Nat) (u : State), s.Loads xs code k u ∧
        exec (.loadPieces tag (xs.flatMap RawRecord.bytes)) s = .next (holdReply tag 0x21
          ⟨code, toBytes 1 k ++ toBytes 1 u.reg.queue.length ++ toBytes 3 s.reg.base⟩ false (react u))) ∧
  (∀ (tag : Byte) (body : List Byte) (s : State), s.link.held = none → bodyLengthOk 0x21 body.length = true →
      s.line.state ∈ [LineState.standby, .ready, .sweep, .interlock] →
      exec (.loadPieces tag body) s = .next (s.answered tag 0x21 .wrongState
        ([0x00] ++ toBytes 1 s.reg.queue.length ++ toBytes 3 s.reg.base))) ∧
  (∀ (tag : Byte) (r : PieceRecord) (s : State), s.link.held = none → s.NoSweep → s.line.state.takesLoad = true →
      1 ≤ r.piece → r.piece ≤ Config.maxPiece → 1 ≤ r.sheets → r.sheets ≤ 24 → (∀ k, r.key = some k → k ≤ 99999) →
      s.plant.plans[r.plan].isSome = true → s.reg.queue.length < 128 → s.reg.base ≤ r.piece → r.piece < s.reg.base + 2048 →
      (if r.reprint then s.pieceState r.piece = .diverted ∨ s.pieceState r.piece = .missing
        else s.pieceState r.piece = .free) →
      ∃ t, exec (.loadPieces tag (pieceRecordBytes r)) s = .next t ∧
        t.fixed = { s.fixed with
          held := some ⟨tag, 0x21, ⟨.ok, [0x01] ++ toBytes 1 (s.reg.queue.length + 1) ++ toBytes 3 s.reg.base⟩, false⟩ } ∧
        t.flow = { s.flow with register := { s.flow.register with
          queue := s.reg.queue ++ [r]
          window := windowSet s.reg.window r.piece .held
          diverts := if s.pieceState r.piece = .diverted then
            s.reg.diverts.filter fun e => !(e.kind == .matched && e.piece == some r.piece) else s.reg.diverts
          lowArmed := s.reg.lowArmed || decide (s.cfg.queueLow ≤ s.reg.queue.length + 1) } }) ∧
  (∀ (tag : Byte) (r : PieceRecord) (s : State), s.link.held = none → s.NoSweep → s.line.state.takesLoad = true →
      1 ≤ r.piece → r.piece ≤ Config.maxPiece → 1 ≤ r.sheets → r.sheets ≤ 24 → (∀ k, r.key = some k → k ≤ 99999) →
      ∃ code, (if 128 ≤ s.reg.queue.length then code = .queueFull
          else if s.plant.plans[r.plan] = none then code = .badValue
          else if r.piece < s.reg.base then code = .duplicatePiece
          else if s.reg.base + 2048 ≤ r.piece then code = .outOfWindow
          else match s.pieceState r.piece with
            | .held | .delivered | .voided => code = .duplicatePiece
            | .diverted | .missing => if r.reprint then code = .ok else code = .notReprint
            | .free => if r.reprint then code = .notDiverted else code = .ok) ∧
        (code ≠ Result.ok → ∃ t, exec (.loadPieces tag (pieceRecordBytes r)) s = .next t ∧ t.flow = s.flow ∧
          t.fixed = { s.fixed with
            held := some ⟨tag, 0x21, ⟨code, [0x00] ++ toBytes 1 s.reg.queue.length ++ toBytes 3 s.reg.base⟩, false⟩ }))

/-- R30, R36, R40 to R43: VoidPiece settles a DIVERTED, MISSING or queued piece as VOIDED and the base advances; a queued piece leaves the
queue, which may give QUEUE_LOW and disarm the low-water flag; one in flight, FREE, settled or outside the window is refused. The number 0 is
refused with BAD_VALUE, and with no job open VoidPiece and ReleaseStray are refused with WRONG_STATE (R157; their reply fields: log entry 12). (The state
of a piece that the base has passed: log entry 34.) ReleaseStray removes one STRAY entry of a number, the oldest (the model's choice, log entry 34). ReadDivertList and QueryPiece return what they name, a
field that does not apply absent (log entry 12), and change nothing. -/
def Obligations.PiecesAndStraysSettled : Prop :=
  (∀ (tag : Byte) (p : Nat) (s : State), s.link.held = none → s.NoSweep → 1 ≤ p → p ≤ Config.maxPiece → s.jobOpen = true →
      (s.reg.base ≤ p → p < s.reg.base + 2048 →
        s.pieceState p = .diverted ∨ s.pieceState p = .missing ∨ (s.pieceState p = .held ∧ s.queuePosition p ≠ none) →
        ∃ t u low, exec (.voidPiece tag (toBytes 3 p)) s = .next t ∧
          low = (s.pieceState p == .held && s.runsLow (s.reg.queue.length - 1)) ∧
          u = { s with
            reg := { s.reg with
              queue := match s.pieceState p, s.queuePosition p with
                | .held, some j => s.reg.queue.eraseIdx j
                | _, _ => s.reg.queue
              diverts := if s.pieceState p = .diverted then
                s.reg.diverts.filter fun e => !(e.kind == .matched && e.piece == some p) else s.reg.diverts
              counters := { s.reg.counters with voided := min (s.reg.counters.voided + 1) 4294967295 }
              base := (advanceBase s.reg.base (windowSet s.reg.window p .voided)).1
              window := (advanceBase s.reg.base (windowSet s.reg.window p .voided)).2
              lowArmed := s.reg.lowArmed && !low }
            link := if low then (queueReport (.queueLow (s.reg.queue.length - 1)
              (advanceBase s.reg.base (windowSet s.reg.window p .voided)).1) s).link else s.link } ∧
          t = holdReply tag 0x32 ⟨.ok, (if u.reg.base ≤ p then [0x05] else [0xFF]) ++ toBytes 3 u.reg.base⟩ false (react u) ∧
          t.flow = u.flow) ∧
      (s.pieceState p = .free ∨ s.pieceState p = .delivered ∨ s.pieceState p = .voided ∨
          (s.pieceState p = .held ∧ s.queuePosition p = none) ∨ p < s.reg.base ∨ s.reg.base + 2048 ≤ p →
        ∃ t, exec (.voidPiece tag (toBytes 3 p)) s = .next t ∧ t.flow = s.flow ∧
          t.link.held.map (fun h => h.reply.result) = some
            (if s.reg.base ≤ p ∧ p < s.reg.base + 2048 ∧ s.pieceState p = .held then .inFlight else .notDiverted))) ∧
  (∀ (tag : Byte) (s : State), s.link.held = none →
      (s.jobOpen = true → exec (.voidPiece tag [0x00, 0x00, 0x00]) s = .next (s.answered tag 0x32 .badValue
        ((if s.reg.base = 0 then toBytes 1 (pieceStateCode (s.pieceState 0)) else [0xFF]) ++ toBytes 3 s.reg.base))) ∧
      (s.jobOpen = false →
        (∀ p2 p1 p0 : Byte, exec (.voidPiece tag [p2, p1, p0]) s =
          .next (s.answered tag 0x32 .wrongState ([0xFF] ++ toBytes 3 s.reg.base))) ∧
        ∀ n1 n0 : Byte, exec (.releaseStray tag [n1, n0]) s = .next (s.answered tag 0x33 .wrongState []))) ∧
  (∀ (tag : Byte) (n : Nat) (s : State), s.link.held = none → n < 65536 → s.jobOpen = true →
      (∀ older e newer, s.reg.diverts = older ++ e :: newer → e.number = n → e.kind = .stray →
        (∀ x ∈ older, x.number = n → x.kind = .matched) → s.NoSweep →
        ∃ t, exec (.releaseStray tag (toBytes 2 n)) s = .next t ∧
          t.fixed = { s.fixed with held := some ⟨tag, 0x33, ⟨.ok, []⟩, false⟩ } ∧
          t.flow = { s.flow with register := { s.flow.register with diverts := older ++ newer } }) ∧
      ((∀ e ∈ s.reg.diverts, e.number = n → e.kind = .matched) →
        exec (.releaseStray tag (toBytes 2 n)) s = .next (s.answered tag 0x33 .notFound []))) ∧
  (∀ (tag : Byte) (s : State), s.link.held = none →
      (∀ start count : Byte,
        (1 ≤ count.toNat → count.toNat ≤ 8 →
          exec (.readDivertList tag [start, count]) s = .next (s.answered tag 0x34 .ok
            (toBytes 1 s.reg.diverts.length ++ ((s.reg.diverts.drop start.toNat).take count.toNat).flatMap divertBytes))) ∧
        (count.toNat = 0 ∨ 8 < count.toNat →
          exec (.readDivertList tag [start, count]) s =
            .next (s.answered tag 0x34 .badValue (toBytes 1 s.reg.diverts.length)))) ∧
      ∀ p : Nat, p ≤ Config.maxPiece →
        (p = 0 → exec (.queryPiece tag (toBytes 3 p)) s =
          .next (s.answered tag 0x36 .badValue (List.replicate 18 0xFF ++ toBytes 3 s.reg.base))) ∧
        (1 ≤ p → s.jobOpen = false → exec (.queryPiece tag (toBytes 3 p)) s =
          .next (s.answered tag 0x36 .notFound (List.replicate 18 0xFF ++ toBytes 3 s.reg.base))) ∧
        (1 ≤ p → s.jobOpen = true →
          (p < s.reg.base → exec (.queryPiece tag (toBytes 3 p)) s =
            .next (s.answered tag 0x36 .ok ([0x00] ++ List.replicate 17 0xFF ++ toBytes 3 s.reg.base))) ∧
          (s.reg.base + 2048 ≤ p → exec (.queryPiece tag (toBytes 3 p)) s =
            .next (s.answered tag 0x36 .ok ([0x02] ++ List.replicate 17 0xFF ++ toBytes 3 s.reg.base))) ∧
          (s.reg.base ≤ p → p < s.reg.base + 2048 →
            (∀ j, s.pieceState p = .held → s.queuePosition p = some j → exec (.queryPiece tag (toBytes 3 p)) s =
              .next (s.answered tag 0x36 .ok
                ([0x01, 0x01, 0x00] ++ toBytes 1 j ++ List.replicate 14 0xFF ++ toBytes 3 s.reg.base))) ∧
            (∀ i r, s.pieceState p = .held → s.queuePosition p = none → s.holder p = some i → s.setAt i = some r →
              exec (.queryPiece tag (toBytes 3 p)) s = .next (s.answered tag 0x36 .ok
                ([0x01, 0x01, 0x01] ++ toBytes 1 i.val ++ toBytes 1 (stageCode r.stage) ++
                  (match r.stage with | .onTrack q => toBytes 1 q.val | _ => [0xFF]) ++ toBytes 4 r.faults.toNat ++
                  optBytes 1 r.lastIndex ++ optBytes 1 r.lastWrap ++ optBytes 2 r.heff ++ optBytes 2 r.caliper ++
                  [0xFF, 0xFF] ++ toBytes 3 s.reg.base))) ∧
            (s.pieceState p = .diverted → exec (.queryPiece tag (toBytes 3 p)) s =
              .next (s.answered tag 0x36 .ok
                ([0x01, 0x02] ++ List.replicate 14 0xFF ++ optBytes 2 (s.divertNumber p) ++ toBytes 3 s.reg.base))) ∧
            (s.pieceState p ≠ .held → s.pieceState p ≠ .diverted → exec (.queryPiece tag (toBytes 3 p)) s =
              .next (s.answered tag 0x36 .ok ([0x01] ++ toBytes 1 (pieceStateCode (s.pieceState p)) ++
                List.replicate 16 0xFF ++ toBytes 3 s.reg.base))))))

/-- R30 to R33: matching a piece number whose record stands at position `j` of the queue. In LOOKUP the record leaves its place; in
SEQUENCE within the skip limit it leaves with every older record, each of whose pieces becomes MISSING and gives PIECE_MISSING with the
piece matched, oldest first (log entry 27); past the skip limit nothing happens. A count that falls from the low mark to below it while the
low-water flag is armed queues one QUEUE_LOW and disarms the flag. Nothing else changes. A number that no record matches is answered by its window state, and then nothing changes. -/
def Obligations.MatchTakesRecord : Prop :=
  ∀ (s : State) (job : Job) (p : Nat), s.reg.job = some job →
    (∀ (older newer : List PieceRecord) (r : PieceRecord), s.reg.queue = older ++ r :: newer → r.piece = p →
      (∀ q ∈ older, q.piece ≠ p) →
      (job.mode = .lookup →
        (matchPiece p s).1 = .matched r ∧ (matchPiece p s).2.reg.queue = older ++ newer ∧
          (matchPiece p s).2.reg.window = s.reg.window ∧
          (matchPiece p s).2 = { s with
            reg.queue := older ++ newer
            reg.lowArmed := s.reg.lowArmed && !s.runsLow (older.length + newer.length)
            link := if s.runsLow (older.length + newer.length)
              then (queueReport (.queueLow (older.length + newer.length) s.reg.base) s).link else s.link }) ∧
      (job.mode = .sequence → older.length ≤ job.skip → windowWf s.reg.window = true →
        (matchPiece p s).1 = .matched r ∧ (matchPiece p s).2.reg.queue = newer ∧
          (s.reg.counters.missing ≤ 4294967295 →
            (matchPiece p s).2.reg.counters.missing = min (s.reg.counters.missing + older.length) 4294967295) ∧
          (∀ q, (matchPiece p s).2.pieceState q = if ∃ o ∈ older, o.piece = q then .missing else s.pieceState q) ∧
          (matchPiece p s).2 = { s with
            reg.queue := newer
            reg.window := (matchPiece p s).2.reg.window
            reg.counters.missing := (matchPiece p s).2.reg.counters.missing
            reg.lowArmed := s.reg.lowArmed && !s.runsLow newer.length
            link := (queueReports (older.map (fun o => .pieceMissing o.piece p) ++
              if s.runsLow newer.length then [.queueLow newer.length s.reg.base] else []) s).link }) ∧
      (job.mode = .sequence → job.skip < older.length → matchPiece p s = (.unknownPiece, s))) ∧
    ((∀ r ∈ s.reg.queue, r.piece ≠ p) →
      (matchPiece p s).2 = s ∧
      (matchPiece p s).1 = if p < s.reg.base then .duplicatePiece
        else if s.reg.base + 2048 ≤ p then .unknownPiece
        else if s.pieceState p = .free ∨ s.pieceState p = .diverted ∨ s.pieceState p = .missing then .unknownPiece
        else .duplicatePiece)

/-- R29, R34 to R38, whole machine: whatever command is run, each HELD piece is in the queue once or in one set in flight, each
DIVERTED piece has its MATCHED divert entry, every number listed lies in the window, and the base stands at no settled number. -/
def Obligations.PiecesKept : Prop :=
  ∀ (s t : State), s.PiecesOk → step s = .next t → t.PiecesOk

/-- R29, R45, R46, R82, R97, R128, R129, R135, R136, R148, R154, whole machine: the queue never holds more than 128 records and no counter
passes 4,294,967,295. The divert list keeps room for every set in flight, and the manifest, but for the sweep, for every set without a bin,
the set that an outstanding feed may start counted in both; it never holds more than 64 entries. Each place holds a set whose record gives
that place's stage, so that no set stands in two places, and at rest every place is empty; the return state, where there is one, is PURGE,
PROVING, RUNNING or RUNOUT. No two bins hold open trays of one group, an open
tray holds from one piece to its capacity, a bin's pieces on their way are the sets in flight with that bin, two at most, and the pieces in
trays are those delivered and those on their way. -/
def Obligations.CapacitiesKept : Prop :=
  (∀ (s t : State), s.RegisterOk → step s = .next t → t.RegisterOk) ∧
  (∀ (s t : State), s.ReserveOk → step s = .next t → t.ReserveOk) ∧
  (∀ (s t : State), s.ManifestOk → step s = .next t → t.ManifestOk) ∧
  (∀ (s t : State), s.ReturnOk → step s = .next t → t.ReturnOk) ∧
  (∀ (s t : State), s.ReturnOk → s.PlacesOk → step s = .next t → t.PlacesOk) ∧
  (∀ (s t : State), s.ReturnOk → s.PlacesOk → s.TraysOk → step s = .next t → t.TraysOk)

/-- R44, whole machine: a set that stays in flight through a command keeps every fault it had, and no set record ever holds a fault
other than the 26 kinds of 11.6. -/
def Obligations.FaultsNeverRemoved : Prop :=
  (∀ (c : Instr) (s t : State) (i : Slot) (r q : SetRecord), exec c s = .next t →
    s.setAt i = some r → t.setAt i = some q → r.faults &&& q.faults = r.faults) ∧
  (∀ (s t : State), s.FaultsOk → step s = .next t → t.FaultsOk)



/-! ### The Collation Unit -/

/-- R5, R6: a feed is requested when every feed condition holds: the feed timeout starts and the starvation report is armed. A feed
held for an empty piece queue alone is reported with QUEUE_STARVED once, and the report is then spent. Nothing else changes but the
feed hold shown and the jam timers. -/
def Obligations.FeedRequestedWhenReady : Prop :=
  ∀ s : State,
    ((s.line.state = .proving ∨ s.line.state = .running) ∧ s.coll.state ≠ .idle) ∨
      (s.line.state = .runout ∧ s.coll.state = .inSet) →
    s.coll.transit = .none →
    (s.coll.state = .setStart ∨ (s.coll.state = .hunt ∧ s.coll.current = none) → s.sets.accumulator = none) →
    s.setsInFlight + 1 ≤ 16 → s.setsInFlight + 1 ≤ 128 - s.reg.diverts.length →
    s.unassigned + 1 ≤ 64 - s.postage.manifest.length →
    ∃ t, exec .feedRequest s = .next t ∧
      { t with coll := s.coll, link := s.link, track.zones := s.track.zones } = s ∧
      (s.coll.state = .inSet ∨ s.reg.queue ≠ [] →
        t.link = s.link ∧ t.coll = { s.coll with
          transit := .feeding none [] ⟨s.time, s.cfg.feedTime⟩, starvationArmed := true, feedHold := .none }) ∧
      (s.coll.state ≠ .inSet → s.reg.queue = [] →
        t.coll = { s.coll with starvationArmed := false, feedHold := .queue } ∧
        t.link = if s.coll.starvationArmed then (queueReport (.queueStarved s.reg.base s.setsInFlight) s).link else s.link)

/-- R1, R2: a READ record whose tag is the one fixed, or, with none fixed, is not the closed tag, fixes the tag; its read is kept in
the next of four places unless it is UNREADABLE, has a field no sheet can have, or agrees with a kept read in the compare mask. A
record with another tag, or taken while no feed is outstanding, is ignored. Nothing of the job changes. -/
def Obligations.ReadsKept : Prop :=
  ∀ (tag : Byte) (mark : Option RawMark) (s : State), s.Calm → s.NoSweep →
    ∃ t, exec (.readRecord tag mark) s = .next t ∧ t.fixed = s.fixed ∧ t.flow = s.flow ∧
      (∀ i closes, s.coll.transit = .decided i closes → t.coll.transit = s.coll.transit) ∧
      ∀ fixed reads timer, s.coll.transit = .feeding fixed reads timer → s.coll.state ≠ .idle →
        (fixed = some tag ∨ (fixed = none ∧ s.coll.closedTag ≠ some tag) →
          (∀ raw, mark = some raw →
            raw.piece ≠ 0 ∧ 1 ≤ raw.index.toNat ∧ raw.index.toNat ≤ 31 ∧ 1 ≤ raw.count.toNat ∧ raw.count.toNat ≤ 31 ∧
              raw.wrap.toNat ≤ 7 →
            (∀ m, m = (⟨raw.job.toNat, raw.piece.toNat, raw.index.toNat, raw.count.toNat, raw.wrap.toNat⟩ : Mark) →
              t.coll.transit = .feeding (some tag)
                (if (∃ k ∈ reads, marksAgree s.compareMask m k = true) ∨ 4 ≤ reads.length then reads else reads ++ [m]) timer)) ∧
          (mark = none ∨ (∃ raw, mark = some raw ∧
              (raw.piece = 0 ∨ raw.index = 0 ∨ raw.count = 0 ∨ 7 < raw.wrap.toNat)) →
            t.coll.transit = .feeding (some tag) reads timer)) ∧
        ((∃ x, fixed = some x ∧ x ≠ tag) ∨ (fixed = none ∧ s.coll.closedTag = some tag) →
          t.coll.transit = s.coll.transit)

/-- R3, R8 to R12, R83: the SHEET_END record of a GOOD sheet with the job's code and index 1, taken in SET_START, starts a set in the
lowest free slot: its match, its governing count and its start faults are settled, the set is counted as started, the expected wrap
and the last accepted mark follow the sheet, and the sheet is handed over, the gate passing it at once where R83 lets it. A set of one
sheet is closed by it. -/
def Obligations.SheetEndStartsSet : Prop :=
  ∀ (tag : Byte) (fixed : Option Byte) (m : Mark) (more : List Mark) (timer : Timer) (i : Slot) (s : State),
    s.Calm → s.NoSweep → s.coll.transit = .feeding fixed (m :: more) timer →
    fixed = some tag ∨ (fixed = none ∧ s.coll.closedTag ≠ some tag) →
    s.coll.state = .setStart → m.job = s.jobCode → m.index = 1 → s.freeSlot = some i →
    ∃ (t : State) (answer : MatchAnswer) (u : State) (g : Nat) (r : SetRecord),
      exec (.sheetEnd tag) s = .next t ∧ matchPiece m.piece s = (answer, u) ∧
      g = (match answer with | .matched rec => rec.sheets | _ => m.count) ∧
      r = { blankSet with
        piece := some m.piece, record := answer.record, governing := g, provingStart := s.line.state == .proving
        lastIndex := some 1, lastWrap := some m.wrap
        faults := (match answer with
            | .matched rec => (if rec.pull then faultMask .hostPull else 0) |||
                (if rec.sheets = m.count then 0 else faultMask .countMismatch)
            | .unknownPiece => faultMask .unknownPiece
            | .duplicatePiece => faultMask .duplicatePiece) |||
          (if 24 < g then faultMask .longSet else 0) |||
          (if s.reg.filter.excludes m.piece then faultMask .rangeExcluded else 0) |||
          (if more = [] then 0 else faultMask .markConflict) } ∧
      t.HoldsSet i r ∧
      t.flow = { (u.flow.put i (some r)) with
        register := { u.flow.register with
          counters := { u.reg.counters with started := min (u.reg.counters.started + 1) 4294967295 } }
        collation := { s.flow.collation with
          state := if g ≤ 1 then .setStart else .inSet, current := if g ≤ 1 then none else some i, expectedIndex := 2
          expectedWrap := some ((m.wrap + 1) % 8), lastMark := some (m.piece, 1) } } ∧
      t.coll.transit = .decided i (decide (g ≤ 1)) ∧ t.coll.closedTag = some tag ∧
      (s.line.state = .proving ∨ s.line.state = .running ∨ s.line.state = .runout ∨ s.line.state = .pausing →
        s.sets.accumulator = none → t.sets.gate = .passing i)

/-- R10 to R18, R22: the other decisions at SHEET_END. In IN_SET an UNREADABLE sheet or one of the same piece is accepted, with its faults
and the closing test; any other sheet closes the set short, which completes at once. A GOOD sheet with the job's code and index 1 then
starts a set, from SET_START, IN_SET and HUNT, where it closes the open bundle; the sheet is held at the gate while the accumulator holds
the set closed. Any other sheet is a hunt sheet: it joins the open bundle or opens one, which RUNOUT closes at once. The wrap and mark
follow every sheet. A set started after a wrap gap queues SHEET_GAP. The READ monitor takes the sheet's events, and its trip stops the
line and disturbs the set or bundle of the sheet. The model's choices: two fault events for a sheet with a gap and a conflict (log entry 9),
no last index and wrap in a bundle's record (log entry 10), and the sheet that opens a bundle in RUNOUT counted and the count left 0 (log
entry 27). -/
def Obligations.SheetEndContinuesSetOrHunts : Prop :=
  ∀ (tag : Byte) (fixed : Option Byte) (reads : List Mark) (timer : Timer) (s : State) (sheet : Option Mark),
    s.NoSweep → s.coll.transit = .feeding fixed reads timer → sheet = reads.head? →
    fixed = some tag ∨ (fixed = none ∧ s.coll.closedTag ≠ some tag) → s.coll.state ≠ .idle →
    ∃ t, exec (.sheetEnd tag) s = .next t ∧
      (∀ m, sheet = some m → t.coll.expectedWrap = some ((m.wrap + 1) % 8) ∧ t.coll.lastMark = some (m.piece, m.index)) ∧
      (sheet = none → t.coll.expectedWrap = s.coll.expectedWrap.map (fun e => (e + 1) % 8) ∧ t.coll.lastMark = s.coll.lastMark) ∧
      (∀ i r, s.coll.state = .inSet → s.coll.current = some i → s.setAt i = some r →
        (∀ m, sheet = some m → m.job = s.jobCode ∧ r.piece = some m.piece) →
        ∃ index closes, index = (match sheet with | some m => m.index | none => s.coll.expectedIndex) ∧
          closes = decide (min r.governing 24 ≤ index ∨ 24 ≤ r.received + 1) ∧
          t.coll.state = (if closes then .setStart else .inSet) ∧
          t.coll.current = (if closes then none else some i) ∧ t.coll.expectedIndex = index + 1 ∧
          t.HoldsSet i { r with
            lastIndex := match sheet with | some m => some m.index | none => r.lastIndex
            lastWrap := match sheet with | some m => some m.wrap | none => r.lastWrap
            faults := r.faults ||| (if sheet = none then faultMask .unreadable else 0) |||
              (match sheet with
                | some m => if m.index = s.coll.expectedIndex ∧ s.coll.expectedWrap = some m.wrap then 0 else faultMask .sheetOrder
                | none => 0) |||
              (if 2 ≤ reads.length then faultMask .markConflict else 0) |||
              (if closes ∧ index < min r.governing 24 then faultMask .longSet else 0) }) ∧
      -- R13, R15: a set closed short completes at once
      (∀ i r, s.coll.state = .inSet → s.coll.current = some i → s.setAt i = some r → s.continuesSet sheet = false →
        t.HoldsSet i (s.completedRecord { r with faults := r.faults ||| faultMask .shortSet }) ∧ t.sets.release ≠ .none ∧
        t.reg.counters.faulted = min (s.reg.counters.faulted + 1) 4294967295) ∧
      -- R16, R17: a bundle ended by a sheet that starts a set completes at once
      (∀ i r, s.coll.state = .hunt → s.coll.current = some i → s.setAt i = some r → s.startsSet sheet = true →
        t.HoldsSet i (s.completedRecord r) ∧ t.sets.release ≠ .none) ∧
      -- R11, R12: the new set, after whatever the sheet closed
      (∀ j m, s.startsSet sheet = true → sheet = some m → s.freeSlot = some j →
        (s.coll.state = .inSet → ∃ i, s.coll.current = some i ∧ s.setAt i ≠ none) →
        (∀ i, s.coll.state = .hunt → s.coll.current = some i → s.setAt i ≠ none) →
        ∃ answer r, answer = (matchPiece m.piece s).1 ∧ r = s.startRecord m (decide (2 ≤ reads.length)) answer ∧
          t.HoldsSet j r ∧ t.coll.state = (if r.governing ≤ 1 then .setStart else .inSet) ∧
          t.coll.current = (if r.governing ≤ 1 then none else some j) ∧ t.coll.expectedIndex = 2 ∧
          t.coll.transit = .decided j (decide (r.governing ≤ 1)) ∧ (s.coll.state = .hunt → t.coll.huntCount = 0) ∧
          t.reg.queue = (matchPiece m.piece s).2.reg.queue ∧ t.reg.window = (matchPiece m.piece s).2.reg.window ∧
          t.reg.counters.started = min (s.reg.counters.started + 1) 4294967295 ∧
          (∀ i, s.sets.accumulator = some i → i ≠ j → t.sets.gate = .closed (some j))) ∧
      -- R11, R16, R21: a hunt sheet with no bundle to join opens one
      (∀ j, s.huntsSheet sheet = true → s.freeSlot = some j → s.coll.state ≠ .hunt ∨ s.coll.current = none →
        (s.coll.state = .inSet → ∃ i, s.coll.current = some i ∧ s.setAt i ≠ none) →
        t.coll.state = (if s.line.state = .runout then .setStart else .hunt) ∧
        t.coll.current = (if s.line.state = .runout then none else some j) ∧
        t.coll.huntCount = (if s.line.state = .runout ∨
            s.cfg.huntCount ≤ (if s.coll.state = .hunt then s.coll.huntCount else 0) + 1 then 0
          else (if s.coll.state = .hunt then s.coll.huntCount else 0) + 1) ∧
        t.reg.counters.started = min (s.reg.counters.started + 1) 4294967295 ∧
        t.coll.transit = .decided j (decide (s.line.state = .runout)) ∧
        t.HoldsSet j (s.bundleRecord sheet (decide (2 ≤ reads.length)))) ∧
      (∀ i r, s.coll.state = .hunt → s.coll.current = some i → s.setAt i = some r →
        (∀ m, sheet = some m → m.job ≠ s.jobCode ∨ m.index ≠ 1) →
        t.coll.state = .hunt ∧ t.coll.current = (if 24 ≤ r.received + 1 then none else some i) ∧
        t.coll.huntCount = (if s.cfg.huntCount ≤ s.coll.huntCount + 1 then 0 else s.coll.huntCount + 1) ∧
        t.HoldsSet i { r with
          faults := r.faults ||| (if sheet = none then faultMask .unreadable else 0) |||
            (if 2 ≤ reads.length then faultMask .markConflict else 0) }) ∧
      -- R10: the reports that the command queues, SHEET_GAP among them exactly where a gap is seen
      (∃ before after, t.link = (queueReports (before ++
          (match sheet, s.coll.expectedWrap with
            | some m, some e => if s.startsSet sheet = true ∧ e ≠ m.wrap
                then [.sheetGap ((m.wrap + 8 - e) % 8) s.coll.lastMark m.piece m.index] else []
            | _, _ => []) ++ after) s).link ∧
        ∀ x ∈ before ++ after, ∀ lost last p k, x ≠ .sheetGap lost last p k) ∧
      -- R18, R22: the READ monitor's events
      (∀ faults, s.jobOpen = true → s.freeSlot ≠ none →
        faults = (match sheet, s.coll.expectedWrap with
            | some m, some e => if s.startsSet sheet = true ∧ e ≠ m.wrap then 1 else 0
            | _, _ => 0) +
          (if sheet = none ∨ 2 ≤ reads.length then 1 else 0) +
          (if s.huntsSheet sheet = true ∧
            s.cfg.huntCount ≤ (if s.coll.state = .hunt then s.coll.huntCount else 0) + 1 then 1 else 0) →
        (s.coll.state = .inSet → ∃ i, s.coll.current = some i ∧ s.setAt i ≠ none) →
        (faults = 0 ∨ s.mon.read.level + faults * s.cfg.readMon.u < s.cfg.readMon.t →
          t.mon.read = (if sheet = none ∨ 2 ≤ reads.length ∨ (s.huntsSheet sheet = true ∧
              s.cfg.huntCount ≤ (if s.coll.state = .hunt then s.coll.huntCount else 0) + 1)
            then ⟨s.mon.read.level + faults * s.cfg.readMon.u, s.mon.read.good⟩
            else if s.mon.read.good + 1 < s.cfg.readMon.d
            then ⟨s.mon.read.level + faults * s.cfg.readMon.u, s.mon.read.good + 1⟩
            else ⟨s.mon.read.level + faults * s.cfg.readMon.u - 1, 0⟩)) ∧
        (1 ≤ faults → s.cfg.readMon.t ≤ s.mon.read.level + s.cfg.readMon.u → s.motion = true ∨ s.line.state = .pausing →
          t.line.state = .faultStop ∧ t.line.stopReason = some .readMonitor ∧
          ∀ j closes q, t.coll.transit = .decided j closes → t.setAt j = some q → hasKind q.faults .disturbed = true))

/-- R7, R162: the feed timeout ends an outstanding feed without a sheet: its reads are discarded and its tag becomes the closed tag.
In PROVING and RUNNING the line pauses with FEEDER_EMPTY, and where nothing else is outstanding it is PAUSED; PAUSING goes on. In
RUNOUT a set in IN_SET is closed short and completes. With no feed outstanding nothing of the job changes. -/
def Obligations.FeedTimeoutEndsFeed : Prop :=
  ∀ s : State, s.NoSweep →
    (s.feeding = false → ∃ t, exec .feedTimeout s = .next t ∧ t.fixed = s.fixed ∧ t.flow = s.flow) ∧
    ∀ tag reads timer, s.coll.transit = .feeding tag reads timer →
      ∃ t, exec .feedTimeout s = .next t ∧ t.fixed = s.fixed ∧
        (s.line.state = .proving ∨ s.line.state = .running →
          t.flow = s.flow ∧ t.coll.transit = .none ∧ t.coll.closedTag = (if tag = none then s.coll.closedTag else tag) ∧
          t.line.returnState = some s.line.state ∧ t.line.stopReason = some .feederEmpty ∧
          t.line.state = (if s.notAtRest.set ∨ s.notAtRest.track then .pausing else .paused)) ∧
        (s.line.state = .pausing →
          t.flow = s.flow ∧ t.coll.transit = .none ∧ t.coll.closedTag = (if tag = none then s.coll.closedTag else tag) ∧
          t.line.returnState = s.line.returnState ∧ t.line.stopReason = s.line.stopReason) ∧
        (∀ i r, s.line.state = .runout → s.coll.state = .inSet → s.coll.current = some i → s.setAt i = some r →
          t.coll.state = .setStart ∧ t.coll.current = none ∧
          t.HoldsSet i (s.completedRecord { r with faults := r.faults ||| faultMask .shortSet }) ∧
          (s.Calm → t.sets.release ≠ .none))

/-! ### The Set Handler -/

/-- R83, R8, R20: the gate opens for a held sheet when the accumulator is empty and the line is in PROVING, RUNNING or RUNOUT, and
stays closed otherwise. The sheet-in event closes a PASSING gate, puts the sheet's set in an empty accumulator, raises its sheets
received by one and ends the sheet in transit; the sheet that closed its set completes it. A sheet-in event at a closed gate is
ignored. R66 to R80: the record of a set that completes gets what its configuration, plan and sheets give: the stops, the effective height,
the marginal flag, the caliper, the expected weight and the faults of the fold. -/
def Obligations.GateOpensAndSheetEnters : Prop :=
  (∀ (s : State),
    (∀ i, s.sets.gate = .closed (some i) →
      ∃ t, exec .sheetGateOpen s = .next t ∧
        { t with sets.gate := s.sets.gate, track.zones := s.track.zones, coll.feedHold := s.coll.feedHold } = s ∧
        t.sets.gate = if s.sets.accumulator = none ∧ (s.line.state = .proving ∨ s.line.state = .running ∨ s.line.state = .runout)
          then .passing i else .closed (some i)) ∧
    (s.NoSweep → ∀ held, s.sets.gate = .closed held →
      ∃ t, exec .sheetIn s = .next t ∧ t.fixed = s.fixed ∧ t.flow = s.flow) ∧
    (s.NoSweep → ∀ i r closes, s.sets.gate = .passing i → s.setAt i = some r → s.coll.transit = .decided i closes →
      ∃ t q, exec .sheetIn s = .next t ∧ t.fixed = s.fixed ∧
        q = (if closes then s.completedRecord { r with received := r.received + 1 } else { r with received := r.received + 1 }) ∧
        t.HoldsSet i q ∧
        t.flow = { s.flow.put i (some q) with
          accumulator := if s.sets.accumulator = none then some i else s.sets.accumulator
          register := { s.flow.register with counters :=
            if closes then
              (if q.faults = 0 then { s.reg.counters with good := min (s.reg.counters.good + 1) 4294967295 }
                else { s.reg.counters with faulted := min (s.reg.counters.faulted + 1) 4294967295 })
            else s.reg.counters } } ∧
        (s.Calm → t.sets.gate = .closed none ∧ (∀ i' c, t.coll.transit ≠ .decided i' c) ∧ (closes = true → t.sets.release ≠ .none)))) ∧
  -- R66 to R80: the Fold Planner
  (∀ (s : State) (r : SetRecord) (rec : PieceRecord) (p : FoldPlan) (q : SetRecord) (off : FaultSet),
    r.record = some rec → s.plant.plans[rec.plan] = some p → q = s.completedRecord r →
    off = (if ∃ n : StationId, hasStation s.plant.classes[rec.insertClass] n = true ∧
      ((s.station n).state = .off ∨ (s.station n).state = .tripped) then faultMask .stationOff else 0) →
    (p.capacity < r.received → q = { r with
      stage := .complete, stationsNeeded := s.plant.classes[rec.insertClass], heff := none, stop1 := none, stop2 := none
      marginal := false, caliper := none, expected := none, faults := r.faults ||| faultMask .foldCapacity ||| off }) ∧
    ∀ fit lo hi panelLo panelHi h creep x1 x2 s1 s2 heff : Int, ∀ (marked unfit marginal : Bool) (ws cal wt : Nat),
      r.received ≤ p.capacity →
      -- R68
      fit = s.cfg.envelopeDepth - s.cfg.clearance →
      lo = s.cfg.envelopeDepth + p.offset + p.block - s.cfg.windowBottom →
      hi = s.cfg.envelopeDepth + p.offset - s.cfg.windowTop →
      -- R69, R70
      panelBounds p s.cfg.sheetLength panelLo panelHi →
      ((p.type = .flat ∧ fit < s.cfg.sheetLength) ∨ (p.type ≠ .flat ∧ (panelHi < panelLo ∨ fit < panelLo)) → q = { r with
        stage := .complete, stationsNeeded := s.plant.classes[rec.insertClass], heff := none, stop1 := none, stop2 := none
        marginal := false, caliper := none, expected := none, faults := r.faults ||| faultMask .foldUnfit ||| off }) ∧
      ((p.type = .flat ∧ s.cfg.sheetLength ≤ fit) ∨ (p.type ≠ .flat ∧ panelLo ≤ panelHi ∧ panelLo ≤ fit) →
      -- R71, R72
      (p.type = .flat → h = s.cfg.sheetLength ∧ marked = false) →
      (p.type ≠ .flat → max lo panelLo ≤ min fit (min hi panelHi) →
        2 * h ≤ max lo panelLo + min fit (min hi panelHi) ∧ max lo panelLo + min fit (min hi panelHi) < 2 * h + 2 ∧ marked = false) →
      (p.type ≠ .flat → min fit (min hi panelHi) < max lo panelLo → h = min fit (max panelLo lo) ∧ marked = true) →
      -- R73
      (r.received - 1) * s.cfg.sheetCaliper * 3 ≤ 200 * creep → 200 * creep < (r.received - 1) * s.cfg.sheetCaliper * 3 + 200 →
      -- R74 to R76
      nearestStop (h + creep) x1 →
      s1 = inPlateRange (if h + creep < x1 ∧ fit < x1 - creep then x1 - 5 else x1) →
      nearestStop (h - p.nest + creep) x2 → s2 = inPlateRange x2 →
      heff = (if p.type = .flat then h else s1 - creep) → unfit = decide (fit < heff) →
      -- R77
      marginal = (!unfit && (marked || decide (heff < lo ∨ hi < heff) || decide (p.type ≠ .flat ∧ heff < panelLo) ||
        decide ((p.type = .letter ∨ p.type = .zig) ∧ s2 ≠ x2))) →
      -- R78 to R80
      cal = r.received * s.cfg.sheetCaliper * (match p.type with | .flat => 1 | .single => 2 | .letter => 3 | .zig => 3) +
        ((stationList s.plant.classes[rec.insertClass]).map fun n => s.plant.stations[n].caliper).sum →
      2000000 * ws ≤ 2 * (s.cfg.grammage * s.cfg.sheetLength * s.cfg.sheetWidth) + 1000000 →
      2 * (s.cfg.grammage * s.cfg.sheetLength * s.cfg.sheetWidth) + 1000000 < 2000000 * ws + 2000000 →
      wt = s.cfg.envelopeWeight + r.received * ws +
        ((stationList s.plant.classes[rec.insertClass]).map fun n => s.plant.stations[n].weight).sum →
      q = { r with
        stage := .complete, stationsNeeded := s.plant.classes[rec.insertClass]
        heff := some heff.toNat
        stop1 := if p.type = .flat then none else some s1.toNat
        stop2 := if p.type = .letter ∨ p.type = .zig then some s2.toNat else none
        marginal := marginal, caliper := some cal, expected := some wt
        faults := r.faults ||| (if unfit then faultMask .foldUnfit else 0) |||
          (if marginal = true ∧ p.policy = .divert then faultMask .foldMarginal else 0) |||
          (if s.cfg.fillMax < cal then faultMask .overfill else 0) |||
          (match s.postal.steps.bind List.getLast? with
            | some bound => if bound < wt then faultMask .overweight else 0
            | none => 0) ||| off }))

/-- R84 to R88, R38, R58, R60: a PENDING release starts in PROVING, RUNNING or RUNOUT: a faulted set to the early divert bin while that has room,
a set without a fault forward to an IDLE folder; a full bin is reported once. The completion of an early release raises the bin's
count, empties the accumulator and diverts the set, which queues PIECE_DIVERTED, counts against proving and may fail it, the line then
going to RUNOUT with target JOB_IDLE (`State.Diverts`; in PAUSING the return state becomes absent: log entry 34; every block then tests
its conditions, `react`: log entry 4; where that divert fails proving, an open bundle of the first clause has its sheet in transit); that
of a release forward makes it the folder set. With no release outstanding a completion is ignored. The early bin's clear reports the count,
makes it 0 and arms the report. -/
def Obligations.ReleasesRun : Prop :=
  ∀ (s : State),
    (∀ i r, s.sets.release = .pending → s.sets.accumulator = some i → s.setAt i = some r → s.working = true →
      ∃ t, exec .releaseStart s = .next t ∧
        { t with sets := s.sets, link := s.link, track.zones := s.track.zones, coll.feedHold := s.coll.feedHold } = s ∧
        (r.faults ≠ 0 → s.sets.earlyCount < s.cfg.earlyCapacity → t.link = s.link ∧
          t.sets = { s.sets with release := .early ⟨s.time, s.cfg.releaseTime⟩, earlyArmed := true }) ∧
        (r.faults ≠ 0 → s.cfg.earlyCapacity ≤ s.sets.earlyCount →
          t.sets = { s.sets with earlyArmed := false } ∧
          t.link = if s.sets.earlyArmed then
            (queueReport (.binChange .early .full none none (some s.sets.earlyCount) (some s.cfg.earlyCapacity) none) s).link
            else s.link) ∧
        (r.faults = 0 → t.link = s.link ∧ t.sets = if s.sets.folder = .idle then
          { s.sets with release := .forward ⟨s.time, s.cfg.releaseTime⟩ } else s.sets)) ∧
    (s.NoSweep → s.releasing = false →
      ∃ t, exec .releaseCompletion s = .next t ∧ t.fixed = s.fixed ∧ t.flow = s.flow) ∧
    (s.NoSweep → ∀ i r timer, s.sets.release = .early timer → s.sets.accumulator = some i → s.setAt i = some r →
      (s.mon.proving = .active → s.mon.provingFault + 1 = s.cfg.provingM → s.coll.state = .hunt →
        s.coll.current = none ∨ ∃ j c, s.coll.current = some j ∧ s.coll.transit = .decided j c) →
      ∃ t, exec .releaseCompletion s = .next t ∧ t.fixed = { s.fixed with earlyCount := s.sets.earlyCount + 1 } ∧
        t.setAt i = none ∧ t.sets.accumulator = none ∧ (s.Calm → t.sets.release = .none) ∧
        t.reg.diverts = s.reg.diverts ++ [{ number := s.reg.nextDivert
                                            kind := if r.record.isSome then .matched else .stray
                                            piece := r.piece, reasons := r.faults, point := .early, sheets := r.received
                                            time := s.time }] ∧
        t.reg.nextDivert = (if 65535 ≤ s.reg.nextDivert then 1 else s.reg.nextDivert + 1) ∧
        t.reg.window = (match r.record, r.piece with
          | some _, some p => windowSet s.reg.window p .diverted
          | _, _ => s.reg.window) ∧
        t.reg.counters = (if r.record.isSome then
            { s.reg.counters with divertedMatched := min (s.reg.counters.divertedMatched + 1) 4294967295 }
          else { s.reg.counters with divertedStray := min (s.reg.counters.divertedStray + 1) 4294967295 }) ∧
        t.reg.queue = s.reg.queue ∧ t.reg.base = s.reg.base ∧ t.track.carriers = s.track.carriers) ∧
    -- R38, R58, R60, R86: the set is diverted, with its report and its count in proving, and every block tests its conditions
    (∀ i r timer, s.sets.release = .early timer → s.sets.accumulator = some i → s.setAt i = some r → r.faults.toNat < 2 ^ 26 →
      ∃ u, exec .releaseCompletion s = .next (react u) ∧
        State.Diverts { s with sets.earlyCount := s.sets.earlyCount + 1, sets.release := .none, sets.accumulator := none }
          i r .early u) ∧
    (s.NoSweep → ∀ i r timer, s.sets.release = .forward timer → s.sets.accumulator = some i → s.setAt i = some r →
      ∃ t, exec .releaseCompletion s = .next t ∧ t.fixed = s.fixed ∧ t.HoldsSet i { r with stage := .folding } ∧
        (s.Calm → t.sets.release = .none ∧ t.sets.folder ≠ .idle) ∧
        t.flow = { s.flow.put i (some { r with stage := .folding }) with accumulator := none, folderSet := some i }) ∧
    (s.NoSweep → ∃ t, exec .earlyBinClear s = .next t ∧ t.fixed = { s.fixed with earlyCount := 0 } ∧ t.flow = s.flow ∧
      (s.line.state.atRest = true → t.sets.earlyArmed = true ∧
        t.link = (queueReport (.binChange .early .cleared none none (some s.sets.earlyCount) none none) s).link))

/-- R89 to R91: a WAITING folder with its set, in PROVING, RUNNING or RUNOUT, moves the plates that differ from the set's stops; where
none does and the fold exit buffer is empty it folds. A completed move leaves each plate named at its stop; a completed fold puts the
set BUFFERED in the buffer and leaves the folder IDLE. A completion in any other folder state is ignored. -/
def Obligations.FolderMovesAndFolds : Prop :=
  (∀ (s : State) (c : Instr),
    (c = .moveCompletion ∧ ∀ p1 p2 timer, s.sets.folder ≠ .moving p1 p2 timer) ∨
      (c = .foldCompletion ∧ ∀ timer, s.sets.folder ≠ .folding timer) →
      ∃ t, exec c s = .next t ∧ t = react s ∧ t.fixed = s.fixed ∧ (s.NoSweep → t.flow = s.flow)) ∧
  ∀ (s : State) (i : Slot) (r : SetRecord), s.sets.folderSet = some i → s.setAt i = some r →
    (s.sets.folder = .waiting → s.working = true →
      ∃ (t : State) (p1 p2 : Option Nat), exec .foldStart s = .next t ∧
        p1 = (if r.stop1 = none ∨ r.stop1 = s.sets.plate1 then none else r.stop1) ∧
        p2 = (if r.stop2 = none ∨ r.stop2 = s.sets.plate2 then none else r.stop2) ∧
        { t with sets.folder := s.sets.folder, track.zones := s.track.zones, coll.feedHold := s.coll.feedHold } = s ∧
        t.sets.folder = (if p1 ≠ none ∨ p2 ≠ none then .moving p1 p2 ⟨s.time, s.cfg.moveTime⟩
          else if s.sets.buffer = none then .folding ⟨s.time, s.cfg.foldTime⟩ else .waiting) ∧
        ∃ u, exec .plateMoveStart s = .next u ∧
          { u with sets.folder := s.sets.folder, track.zones := s.track.zones, coll.feedHold := s.coll.feedHold } = s ∧
          u.sets.folder = (if p1 ≠ none ∨ p2 ≠ none then .moving p1 p2 ⟨s.time, s.cfg.moveTime⟩ else .waiting)) ∧
    (s.NoSweep → s.Calm → ∀ p1 p2 timer, s.sets.folder = .moving p1 p2 timer →
      ∃ t, exec .moveCompletion s = .next t ∧ t.fixed = s.fixed ∧ t.flow = s.flow ∧
        t.sets.plate1 = (if p1 = none then s.sets.plate1 else p1) ∧ t.sets.plate2 = (if p2 = none then s.sets.plate2 else p2) ∧
        (s.working = true → r.stop1 = none ∨ r.stop1 = t.sets.plate1 → r.stop2 = none ∨ r.stop2 = t.sets.plate2 →
          s.sets.buffer = none → t.sets.folder = .folding ⟨s.time, s.cfg.foldTime⟩) ∧
        (s.line.state = .pausing → t.sets.folder = .waiting)) ∧
    (s.NoSweep → s.Calm → ∀ timer, s.sets.folder = .folding timer → s.sets.buffer = none →
      ∃ t, exec .foldCompletion s = .next t ∧ t.fixed = s.fixed ∧ t.HoldsSet i { r with stage := .buffered } ∧
        t.sets.folder = .idle ∧
        t.flow = { s.flow.put i (some { r with stage := .buffered }) with folderSet := none, buffer := some i })

/-- R93, R122, R120, R95, R121, R171: the expiry of the timeout of a release, a plate move, a fold, an index, a weighing or a delivery,
or of a jam timer, takes a line in a motion state to FAULT_STOP with its reason, and one in PAUSING with the return state it held.
Every operation outstanding is cut off where it started, and the sets keep their places: the set of each gets DISTURBED and no other,
a cut-off feed leaves the current set DISTURBED, a release is PENDING, a move's plates are absent, the folder WAITING, a station in mid-drop
REFILLING with a new sequence or OFF where a disable was pending, the pocket REFILLING, and every refill due again (`State.CutsOff`; every
block then tests its conditions, `react`, log entry 4; the order of several STATION_CHANGE reports: log entry 27). In any other line
state the line stays; and an expiry of nothing outstanding changes nothing of the job. -/
def Obligations.TimeoutsStopLine : Prop :=
  -- R171, R22, R95, R121: a fault stop, whatever asks for it
  (∀ (s : State) (reason : Reason),
    (s.motion = true ∨ s.line.state = .pausing →
      s.CutsOff true [.stateChange .faultStop s.line.state reason] (faultStop reason s) ∧
      (faultStop reason s).line = { s.line with
        state := .faultStop, stopReason := some reason, pendingPause := noSections
        returnState := if s.motion then some s.line.state else s.line.returnState }) ∧
    (s.motion = false → s.line.state ≠ .pausing → faultStop reason s = s)) ∧
  -- R93, R122, R120: what asks for one
  (∀ s : State,
    (s.releasing = true → exec .releaseTimeout s = .next (react (faultStop .releaseTimeout s))) ∧
    (∀ p1 p2 x, s.sets.folder = .moving p1 p2 x → exec .moveTimeout s = .next (react (faultStop .moveTimeout s))) ∧
    (∀ x, s.sets.folder = .folding x → exec .foldTimeout s = .next (react (faultStop .foldTimeout s))) ∧
    (s.track.index ≠ none → exec .indexTimeout s = .next (react (faultStop .indexTimeout s))) ∧
    (s.track.weigh ≠ none → exec .weighTimeout s = .next (react (faultStop .weighTimeout s))) ∧
    (s.track.delivery ≠ none → exec .deliveryTimeout s = .next (react (faultStop .deliveryTimeout s))) ∧
    (∀ z k : Fin 4, s.track.zones[z].sensors[k].timer ≠ none →
      exec (.jamTimerExpiry (BitVec.ofNat 8 z.val) (BitVec.ofNat 8 (k.val + 1))) s = .next (react (faultStop (.jam (zoneAt z) k)
        { s with track.zones := s.track.zones.set z.val { s.track.zones[z] with
          jammed := some k
          sensors := s.track.zones[z].sensors.set k.val { s.track.zones[z].sensors[k] with timer := none } k.isLt } z.isLt })))) ∧
  ∀ (s : State) (c : Instr) (reason : Reason), s.NoSweep →
    (c, reason) ∈ [(Instr.releaseTimeout, Reason.releaseTimeout), (.moveTimeout, .moveTimeout), (.foldTimeout, .foldTimeout),
      (.indexTimeout, .indexTimeout), (.weighTimeout, .weighTimeout), (.deliveryTimeout, .deliveryTimeout)] ∨
      (∃ z k : Fin 4, c = .jamTimerExpiry (BitVec.ofNat 8 z.val) (BitVec.ofNat 8 (k.val + 1)) ∧
        reason = .jam (zoneAt z) k) →
    ∃ running, running = (match c with
        | .releaseTimeout => s.releasing
        | .moveTimeout => (match s.sets.folder with | .moving .. => true | _ => false)
        | .foldTimeout => (match s.sets.folder with | .folding _ => true | _ => false)
        | .indexTimeout => s.track.index.isSome
        | .weighTimeout => s.track.weigh.isSome
        | .deliveryTimeout => s.track.delivery.isSome
        | .jamTimerExpiry z k => (match zoneOfCode z, sensorOfCode k with
          | some z, some k => s.track.zones[z].sensors[k].timer.isSome
          | _, _ => false)
        | _ => false) ∧
      ∃ t, exec c s = .next t ∧ t.flow = s.flow ∧
        ((running = true → ∀ z k, c ≠ .jamTimerExpiry z k) → t.fixed = s.fixed) ∧
        (running = true → s.motion = true ∨ s.line.state = .pausing →
          t.line.state = .faultStop ∧ t.line.stopReason = some reason ∧
          t.line.returnState = (if s.motion then some s.line.state else s.line.returnState) ∧
          t.feeding = false ∧ t.releasing = false ∧ t.folderAtRest = true ∧ t.track.busy = false ∧
          (s.releasing = true → t.sets.release = .pending) ∧
          (s.track.index.isSome = true → ∀ (p : Position) j q, s.carrier p = some j → t.setAt j = some q →
            hasKind q.faults .disturbed = true)) ∧
        (running = true → s.line.state.atRest = true → t.line = s.line) ∧
        (∀ z k : Fin 4, c = .jamTimerExpiry (BitVec.ofNat 8 z.val) (BitVec.ofNat 8 (k.val + 1)) → running = true →
          t.fixed = { s.fixed with zones := s.fixed.zones.set z.val { s.fixed.zones[z] with jammed := some k } z.isLt })

/-! ### The Monitor Bank -/

/-- R51: a good event raises a monitor's good count by one; at `d` the count returns to 0 and the level falls by one, down to 0. It
changes nothing else, so that it never trips the monitor. -/
def Obligations.GoodEventCounts : Prop :=
  ∀ (m : MonitorId) (s : State), s.takesEvents m = true → (s.monLevel m).good < (s.monParams m).d →
    (monitorGood m s).monLevel m =
      (if (s.monLevel m).good + 1 = (s.monParams m).d then ⟨(s.monLevel m).level - 1, 0⟩
        else ⟨(s.monLevel m).level, (s.monLevel m).good + 1⟩) ∧
    putMonLevel m (s.monLevel m) (monitorGood m s) = s ∧
    ((s.monParams m).d = 1 → (s.monLevel m).good = 0 → (monitorGood m s).monLevel m = ⟨(s.monLevel m).level - 1, 0⟩)

/-- R50, R53 to R55: a fault event raises the level by U. Below T it ends there. At T or more the level and good count become 0 and one
MONITOR_TRIP is queued, with the outcome: a STOP takes a line in a motion state or PAUSING to FAULT_STOP (STOPPED) and leaves the state of
any other (ALREADY_STOPPED, AT_REST), and a DISABLE makes the station TRIPPED, with a STATION_CHANGE, and leaves the line (DISABLED). A
monitor that takes no events changes nothing (R52). -/
def Obligations.FaultEventRaisesOrTrips : Prop :=
  ∀ (m : MonitorId) (cause : TripCause) (piece : Option Nat) (s : State),
    (s.takesEvents m = false → monitorFault m cause piece s = s) ∧
    (s.takesEvents m = true → (s.monLevel m).level + (s.monParams m).u < (s.monParams m).t →
      monitorFault m cause piece s =
        putMonLevel m ⟨(s.monLevel m).level + (s.monParams m).u, (s.monLevel m).good⟩ s) ∧
    (s.takesEvents m = true → (s.monParams m).t ≤ (s.monLevel m).level + (s.monParams m).u →
      (monitorFault m cause piece s).monLevel m = ⟨0, 0⟩ ∧
      (s.tripAction m = .stop → s.motion = true ∨ s.line.state = .pausing →
        (monitorFault m cause piece s).line.state = .faultStop ∧
        (monitorFault m cause piece s).line.stopReason = some (tripReason m) ∧
        monitorFault m cause piece s = faultStop (tripReason m)
          (queueReport (.monitorTrip m cause ((s.monLevel m).level + (s.monParams m).u) (s.monParams m) .stop .stopped piece)
            (putMonLevel m ⟨0, 0⟩ s)) ∧
        ((∀ n : StationId, (s.station n).pendingDisable = false) →
          (monitorFault m cause piece s).link = (queueReports
            [.monitorTrip m cause ((s.monLevel m).level + (s.monParams m).u) (s.monParams m) .stop .stopped piece,
              .stateChange .faultStop s.line.state (tripReason m)] s).link)) ∧
      (s.tripAction m = .stop → s.motion = false → s.line.state ≠ .pausing →
        monitorFault m cause piece s = queueReport (.monitorTrip m cause ((s.monLevel m).level + (s.monParams m).u) (s.monParams m)
          .stop (if s.line.state = .faultStop then .alreadyStopped else .atRest) piece) (putMonLevel m ⟨0, 0⟩ s)) ∧
      (∀ n, m = .station n → s.tripAction m = .disable →
        ((monitorFault m cause piece s).station n) = { s.station n with state := .tripped, announce := false } ∧
        (∀ k : StationId, k ≠ n → (monitorFault m cause piece s).station k = s.station k) ∧
        (monitorFault m cause piece s).link = (queueReports
          [.monitorTrip m cause ((s.monLevel m).level + (s.monParams m).u) (s.monParams m) .disable .disabled piece,
            .stationChange n (s.station n).state .tripped .trip] s).link ∧
        { monitorFault m cause piece s with track.stations := s.track.stations, link := s.link } = putMonLevel m ⟨0, 0⟩ s))

/-- R48 to R51, whole machine: whatever command is run, every monitor in force stands below its threshold, and its good count below the
good events of a step. -/
def Obligations.MonitorsBelowThreshold : Prop :=
  ∀ (s t : State), s.MonitorsOk → step s = .next t → t.MonitorsOk

/-- R62, R74, R75, R89, whole machine: every plate position, every stop of a move outstanding and every stop that a set record holds is
a stop from 50.0 mm to 240.0 mm on the plates' grid of 0.5 mm. -/
def Obligations.PlateStopsInRange : Prop :=
  ∀ (s t : State), s.StopsOk → step s = .next t → t.StopsOk



/-! ### The Track Controller -/

/-- R99 to R101, R92, R119, R38, R58, R60: an index starts when every condition holds; one held for exit-clear alone is reported once. At its completion
the set at P11 goes into the transport when it has a bin and into the late divert bin when it has none; every other carrier moves up, the
buffered set becomes the carrier at P0, and in PURGE one pitch less remains. A late divert queues PIECE_DIVERTED, counts against proving and
may fail it, the line then going to RUNOUT with target JOB_IDLE (`State.Diverts`; in PAUSING the return state becomes absent: log entry 34),
before the positions act (log entry 35); every block then tests its conditions (`react`, log entry 4). Where that divert fails proving, an open bundle of the second clause is on no carrier. The
late divert gate turns back at the completion (log entry 17). -/
def Obligations.IndexStartsAndMovesCarriers : Prop :=
  (∀ s : State, s.motion = true →
      s.sets.buffer ≠ none ∨ (∃ p : Position, s.carrier p ≠ none) ∨ (s.line.state = .purge ∧ 0 < s.track.purgePitches) →
      (∀ n : StationId, s.awaitsDrop n = false ∧ (s.station n).drop = none) → s.awaitsInsert = false → s.track.head.insert = none →
      s.awaitsScan = false → s.track.scan = none → s.awaitsWeigh = false → s.track.weigh = none → s.track.index = none →
      (∀ i r, s.carrier 11 = some i → s.setAt i = some r →
        (r.bin ≠ none ∧ s.track.transport = none) ∨ (r.bin = none ∧ r.faults ≠ 0 ∧ s.track.lateCount < s.cfg.lateCapacity)) →
      ∃ t, exec .indexStart s = .next t ∧
        { t with track := s.track, link := s.link, coll.feedHold := s.coll.feedHold } = s ∧
        (s.track.exitClear = true → t.link = s.link ∧
          { t.track with zones := s.track.zones } = { s.track with index := some ⟨s.time, s.cfg.indexTime⟩ }) ∧
        (s.track.exitClear = false →
          { t.track with zones := s.track.zones } = { s.track with exitArmed := false } ∧
          t.link = if s.track.exitArmed then (queueReport (.exitBlocked (s.carrier 11) s.track.transport.isSome) s).link else s.link)) ∧
  (∀ s : State, s.NoSweep →
      (s.track.index = none → ∃ t, exec .indexCompletion s = .next t ∧ t.fixed = s.fixed ∧ t.flow = s.flow) ∧
      (s.track.index ≠ none →
        (∀ i r, s.carrier 11 = some i → s.setAt i = some r → r.bin = none → s.ProvingCounts r →
          s.mon.provingFault + 1 = s.cfg.provingM → s.coll.state = .hunt →
          ∀ j, s.coll.current = some j → (∀ p : Position, s.carrier p ≠ some j) ∧ s.sets.buffer ≠ some j) →
        ∃ t, exec .indexCompletion s = .next t ∧ t.time = s.time ∧ t.plant = s.plant ∧ t.postal = s.postal ∧
          t.carrier 0 = s.sets.buffer ∧ (∀ p : Fin 11, t.carrier p.succ = s.carrier p.castSucc) ∧ t.sets.buffer = none ∧
          t.sets.accumulator = s.sets.accumulator ∧ t.sets.folderSet = s.sets.folderSet ∧ t.reg.queue = s.reg.queue ∧
          t.reg.base = s.reg.base ∧
          (∀ (p : Position) i r, t.carrier p = some i → s.setAt i = some r → s.carrier 11 ≠ some i →
            (∀ q : Position, t.carrier q = some i → q = p) → t.HoldsSet i { r with stage := .onTrack p }) ∧
          (∀ i r, s.carrier 11 = some i → s.setAt i = some r → (∀ p : Position, t.carrier p ≠ some i) →
            (r.bin ≠ none → t.track.transport = some i ∧ t.track.lateCount = s.track.lateCount ∧ t.reg.diverts = s.reg.diverts ∧
              t.HoldsSet i { r with stage := .inTransport } ∧
              (s.Calm → t.track.delivery = some ⟨s.time, s.cfg.deliveryTime⟩)) ∧
            (r.bin = none → t.track.transport = s.track.transport ∧ t.track.lateCount = s.track.lateCount + 1 ∧ t.setAt i = none ∧
              t.reg.diverts = s.reg.diverts ++ [{ number := s.reg.nextDivert
                                                  kind := if r.record.isSome then .matched else .stray
                                                  piece := r.piece, reasons := r.faults, point := .late, sheets := r.received
                                                  time := s.time }])) ∧
          (s.carrier 11 = none → t.track.transport = s.track.transport ∧ t.track.lateCount = s.track.lateCount ∧
            t.reg.diverts = s.reg.diverts) ∧
          (s.Calm → s.line.state = .purge → t.track.purgePitches = s.track.purgePitches - 1))) ∧
  -- R38, R58, R60, R100, R117: a faulted set without a bin drops into the late divert bin and is diverted
  (∀ (s : State) (i : Slot) (r : SetRecord), s.track.index ≠ none → s.carrier 11 = some i → s.setAt i = some r → r.bin = none →
      r.faults.toNat < 2 ^ 26 →
      ∃ x u, exec .indexCompletion s = .next (react u) ∧
        State.Diverts { s with track.index := none, track.lateCount := s.track.lateCount + 1, track.lateArmed := true } i r .late x ∧
        (∀ p : Position, p.val ≠ 0 → ∀ q : Position, q.val + 1 = p.val → u.carrier p = s.carrier q) ∧
        u.carrier 0 = s.sets.buffer ∧
        u = { x with
          reg.pool := u.reg.pool, sets.buffer := none
          track := { x.track with
            carriers := u.track.carriers, purgePitches := u.track.purgePitches
            assignDue := true, sortReported := false, lateGate := .divert }
          line.purgeHeldDone := u.line.purgeHeldDone } ∧
        (∀ j, u.setAt j = (x.setAt j).map fun q => { q with stage := ((u.setAt j).map SetRecord.stage).getD q.stage }) ∧
        (s.line.state ∈ [LineState.proving, .running, .runout] →
          u.line = x.line ∧ u.track.purgePitches = s.track.purgePitches))

/-- R106, R107, R98: a drop request acts on the carrier that awaits a drop: a READY station drops, an OFF or TRIPPED one leaves the
set STATION_OFF, and an EMPTY one pauses PROVING and RUNNING. A drop's completion or timeout records its result on the set at the
station, gives the station's monitor a good event for GOOD and a fault event, which may trip it, for the two others (R52 to R55: with no job
open the monitor takes none), and starts a refill sequence, or leaves the station OFF when a disable is pending (every block then tests its
conditions, `react`, log entry 4). With no drop outstanding it is ignored. -/
def Obligations.DropsRun : Prop :=
  (∀ (n : StationId) (s : State) (c : Instr), (s.station n).drop = none →
    c ∈ [Instr.dropCompletion n .good, .dropCompletion n .miss, .dropCompletion n .double, .dropTimeout n] →
      ∃ t, exec c s = .next t ∧ t = react s ∧ t.fixed = s.fixed ∧ (s.NoSweep → t.flow = s.flow)) ∧
  ∀ (n : StationId) (i : Slot) (r : SetRecord) (s : State), s.NoSweep → s.carrier (stationPosition n) = some i → s.setAt i = some r →
    (s.motion = true → r.faults = 0 → hasStation r.stationsNeeded n = true → hasStation r.stationsDone n = false →
      ∃ t, exec (.dropRequest n) s = .next t ∧ t.fixed = s.fixed ∧ t.flow = s.flow ∧
        ((s.station n).state = .ready → s.Calm → (t.station n).state = .dropping ∧
          (t.station n).drop = some ⟨s.time, s.plant.stations[n].dropTimeout⟩) ∧
        ((s.station n).state = .off ∨ (s.station n).state = .tripped →
          ∃ q, t.setAt i = some q ∧ hasKind q.faults .stationOff = true) ∧
        ((s.station n).state = .empty → s.line.state = .proving ∨ s.line.state = .running →
          (t.line.state = .pausing ∨ t.line.state = .paused) ∧ t.line.stopReason = some (.stationEmpty n) ∧
          t.line.returnState = some s.line.state)) ∧
    ((s.station n).drop ≠ none → (s.station n).state = .dropping → ∀ c result,
      (c, result) ∈ [(Instr.dropCompletion n .good, DropResult.good), (.dropCompletion n .miss, .miss),
        (.dropCompletion n .double, .double), (.dropTimeout n, .miss)] →
      ∃ t, exec c s = .next t ∧ t.fixed = { s.fixed with stationMonitors := t.mon.stations } ∧
        t.flow = s.flow.put i (some (if result = .good then { r with stationsDone := addStation r.stationsDone n } else r)) ∧
        (∃ q, t.setAt i = some q ∧ (result = .miss → hasKind q.faults .insertMiss = true) ∧
          (result = .double → hasKind q.faults .insertDouble = true)) ∧
        (∀ k : StationId, k ≠ n → t.mon.stations[k] = s.mon.stations[k]) ∧
        (s.Calm → (s.station n).pendingDisable = true → (t.station n).state = .off ∧ (t.station n).seq = .none) ∧
        (s.Calm → (s.station n).pendingDisable = false →
          ((t.station n).state = .refilling ∨ (t.station n).state = .tripped) ∧
          ((t.station n).seq = .waiting 1 ∨ ∃ x, (t.station n).seq = .running 1 x))) ∧
    -- R50 to R55, R107: the event given to the station's monitor
    ((s.station n).drop ≠ none → (s.station n).state = .dropping → ∀ c result,
      (c, result) ∈ [(Instr.dropCompletion n .good, DropResult.good), (.dropCompletion n .miss, .miss),
        (.dropCompletion n .double, .double), (.dropTimeout n, .miss)] →
      ∀ (p : MonParams) (l : MonLevel), p = s.plant.stations[n].mon → l = s.mon.stations[n] →
      ∃ (w v u : State) (cause : TripCause), exec c s = .next (react u) ∧ (react u).mon.stations = v.mon.stations ∧
        cause = (if result = .double then .insertDouble else .insertMiss) ∧
        -- the result on the set
        w = { s with
          track.stations := s.track.stations.set n.val { s.station n with drop := none } n.isLt
          reg.pool := s.reg.pool.set i.val (some { r with
            stationsDone := if result = .good then addStation r.stationsDone n else r.stationsDone
            faults := r.faults ||| (match result with
              | .good => 0
              | .miss => faultMask .insertMiss
              | .double => faultMask .insertDouble) }) i.isLt } ∧
        -- the event
        (s.jobOpen = false → v = w) ∧
        (result = .good → s.jobOpen = true → v = { w with
          mon.stations := s.mon.stations.set n.val (if l.good + 1 < p.d then ⟨l.level, l.good + 1⟩ else ⟨l.level - 1, 0⟩) n.isLt }) ∧
        (result ≠ .good → s.jobOpen = true → l.level + p.u < p.t →
          v = { w with mon.stations := s.mon.stations.set n.val ⟨l.level + p.u, l.good⟩ n.isLt }) ∧
        (result ≠ .good → s.jobOpen = true → p.t ≤ l.level + p.u → s.plant.stations[n].trip = .stop →
          v = faultStop (.stationMonitor n) (queueReport (.monitorTrip (.station n) cause (l.level + p.u) p .stop
            (if s.motion = true ∨ s.line.state = .pausing then .stopped
              else if s.line.state = .faultStop then .alreadyStopped else .atRest) r.piece)
            { w with mon.stations := s.mon.stations.set n.val ⟨0, 0⟩ n.isLt })) ∧
        (result ≠ .good → s.jobOpen = true → p.t ≤ l.level + p.u → s.plant.stations[n].trip = .disable →
          v = { w with
            mon.stations := s.mon.stations.set n.val ⟨0, 0⟩ n.isLt
            track.stations := s.track.stations.set n.val
              { s.station n with drop := none, state := .tripped, announce := false } n.isLt
            link := (queueReports [.monitorTrip (.station n) cause (l.level + p.u) p .disable .disabled r.piece,
              .stationChange n .dropping .tripped .trip] s).link }) ∧
        -- the station after its drop
        ((s.station n).pendingDisable = false → u = { v with
          track.stations := v.track.stations.set n.val { v.station n with
            state := if (v.station n).state = .tripped then .tripped else .refilling, seq := .waiting 1 } n.isLt }) ∧
        ((s.station n).pendingDisable = true → u = { v with
          track.stations := v.track.stations.set n.val { v.station n with
            state := .off, seq := .none, pendingDisable := false, announce := false } n.isLt
          link := (queueReport (.stationChange n (v.station n).state .off .host) v).link }))

/-- R108, R110: a due refill attempt starts in a motion state. A GOOD completion makes a REFILLING station READY. A failed or timed out
attempt gives the station's monitor a fault event; the first two leave the next attempt due, and the third leaves a REFILLING station
EMPTY, which a carrier that waits for it in PROVING or RUNNING pauses and in RUNOUT does without (R106). The attempts of a TRIPPED or OFF
station run on, change no level and leave its state. With no attempt outstanding a completion or timeout is ignored. -/
def Obligations.RefillsRun : Prop :=
  ∀ (n : StationId) (s : State), s.NoSweep →
    (∀ k, (s.station n).seq = .waiting k →
      ∃ t, exec (.refillAttemptStart n) s = .next t ∧
        { t with track.stations := s.track.stations, track.zones := s.track.zones, coll.feedHold := s.coll.feedHold } = s ∧
        (∀ j : StationId, j ≠ n → t.station j = s.station j) ∧
        t.station n = (if s.motion then
          { s.station n with seq := .running k ⟨s.time, s.plant.stations[n].refillTimeout⟩ } else s.station n)) ∧
    ((∀ k x, (s.station n).seq ≠ .running k x) → ∀ c ∈ [Instr.refillCompletion n .good, .refillCompletion n .fail, .refillTimeout n],
      ∃ t, exec c s = .next t ∧ t.fixed = s.fixed ∧ t.flow = s.flow) ∧
    (∀ k x, (s.station n).seq = .running k x → (s.station n).state = .refilling →
      (∃ t, exec (.refillCompletion n .good) s = .next t ∧ t.fixed = s.fixed ∧ t.flow = s.flow ∧
        (s.Calm → s.awaitsDrop n = false → (t.station n).state = .ready ∧ (t.station n).seq = .none)) ∧
      ∀ c ∈ [Instr.refillCompletion n .fail, .refillTimeout n],
        ∃ t, exec c s = .next t ∧ t.fixed = { s.fixed with stationMonitors := t.mon.stations } ∧ t.flow = s.flow ∧
          (∀ j : StationId, j ≠ n → t.mon.stations[j] = s.mon.stations[j]) ∧
          ((s.monLevel (.station n)).level + (s.monParams (.station n)).u < (s.monParams (.station n)).t → s.jobOpen = true →
            t.mon.stations[n] = ⟨(s.monLevel (.station n)).level + (s.monParams (.station n)).u, (s.monLevel (.station n)).good⟩ ∧
            (s.Calm → k < 3 → (t.station n).state = .refilling ∧
              ((t.station n).seq = .waiting (k + 1) ∨ ∃ y, (t.station n).seq = .running (k + 1) y)) ∧
            (s.motion = false → 3 ≤ k → (t.station n).state = .empty ∧ (t.station n).seq = .none) ∧
            (s.line.state.atRest = true → 3 ≤ k →
              t.link = (queueReport (.stationChange n .refilling .empty .refillExhausted) s).link) ∧
            (s.motion = true → s.Calm → 3 ≤ k → (t.station n).state = .empty ∧ (t.station n).seq = .none ∧
              (s.awaitsDrop n = true → s.line.state = .proving ∨ s.line.state = .running →
                (∀ j : StationId, j ≠ n → s.carrier (stationPosition j) ≠ s.carrier (stationPosition n)) →
                (t.line.state = .pausing ∨ t.line.state = .paused) ∧ t.line.stopReason = some (.stationEmpty n) ∧
                t.line.returnState = some s.line.state) ∧
              (s.awaitsDrop n = true → s.line.state = .runout →
                ∃ i q, s.carrier (stationPosition n) = some i ∧ t.setAt i = some q ∧ hasKind q.faults .stationOff = true)))) ∧
    (∀ k x, (s.station n).seq = .running k x → (s.station n).state = .tripped ∨ (s.station n).state = .off → s.Calm →
      ∀ c ∈ [Instr.refillCompletion n .good, .refillCompletion n .fail, .refillTimeout n],
        ∃ t, exec c s = .next t ∧ t.fixed = s.fixed ∧ t.flow = s.flow ∧
          t.station n = { s.station n with
            seq := if c = .refillCompletion n .good ∨ 3 ≤ k then .none
              else if s.motion then .running (k + 1) ⟨s.time, s.plant.stations[n].refillTimeout⟩ else .waiting (k + 1) })

/-- R50, R51, R53, R111, R112: an insert is requested from a STAGED pocket for the carrier at P8 that awaits an envelope; from an EMPTY pocket
the result is ENVELOPE_MISS at once, the ENVELOPE monitor takes a fault event, and a refill is started. A due envelope refill starts in a
motion state, whether or not a carrier stands at P8. An insert's completion or timeout ends the insert, records its result on the set,
gives the ENVELOPE monitor a good event for GOOD and a fault event, which may trip it, for the two others, and leaves the pocket REFILLING,
its refill started in a motion state that the trip has not ended (every block then tests its conditions, `react`, log entry 4). A refill's
leaves the pocket STAGED, or EMPTY with a fault event, and a carrier that waits for it is given ENVELOPE_MISS. With nothing outstanding each
is ignored. -/
def Obligations.InsertHeadRuns : Prop :=
  (∀ (s : State) (c : Instr),
    (s.track.head.insert = none ∧ c ∈ [Instr.insertCompletion .good, .insertCompletion .envelopeMiss, .insertCompletion .insertFail,
        .insertTimeout]) ∨
      (s.track.head.refill = none ∧ c ∈ [Instr.envelopeRefillCompletion .good, .envelopeRefillCompletion .fail, .envelopeRefillTimeout]) →
      ∃ t, exec c s = .next t ∧ t = react s ∧ t.fixed = s.fixed ∧ (s.NoSweep → t.flow = s.flow)) ∧
  ∀ s : State, s.NoSweep →
    (s.motion = true → s.track.head.pocket = .refilling → s.track.head.refill = none →
      ∃ t, exec .envelopeRefillStart s = .next t ∧
        { t with track.head.refill := s.track.head.refill, track.zones := s.track.zones, coll.feedHold := s.coll.feedHold } = s ∧
        t.track.head.refill = some ⟨s.time, s.cfg.envelopeRefillTime⟩) ∧
    (s.track.head.refill ≠ none → ∀ c result,
      (c, result) ∈ [(Instr.envelopeRefillCompletion .good, RefillResult.good), (.envelopeRefillCompletion .fail, .fail),
        (.envelopeRefillTimeout, .fail)] →
      ∃ t, exec c s = .next t ∧ t.fixed = s.fixed ∧ t.flow = s.flow ∧
        (result = .good → s.Calm → t.track.head.pocket = .staged ∧
          (s.motion = true → s.awaitsInsert = true → s.track.head.insert = none →
            (∀ n : StationId, s.carrier (stationPosition n) ≠ s.carrier 8) →
            t.track.head.insert = some ⟨s.time, s.cfg.insertTime⟩)) ∧
        (result = .fail → s.line.state.atRest = true → t.track.head.pocket = .empty ∧ t.track.head.refill = none) ∧
        (result = .fail → s.jobOpen = false → t.mon = s.mon) ∧
        (result = .fail → s.jobOpen = true →
          (s.awaitsInsert = false ∨ s.motion = false → s.mon.envelope.level + s.cfg.envelopeMon.u < s.cfg.envelopeMon.t →
            t.track.head.pocket = .empty ∧ t.track.head.refill = none ∧
            t.mon.envelope = ⟨s.mon.envelope.level + s.cfg.envelopeMon.u, s.mon.envelope.good⟩) ∧
          (s.motion = true → s.awaitsInsert = true → s.track.head.insert = none →
            (∀ n : StationId, s.carrier (stationPosition n) ≠ s.carrier 8) →
            s.mon.envelope.level + 2 * s.cfg.envelopeMon.u < s.cfg.envelopeMon.t →
            t.track.head.pocket = .refilling ∧ t.track.head.refill = some ⟨s.time, s.cfg.envelopeRefillTime⟩ ∧
            t.mon.envelope = ⟨s.mon.envelope.level + 2 * s.cfg.envelopeMon.u, s.mon.envelope.good⟩ ∧
            ∃ i q, s.carrier 8 = some i ∧ t.setAt i = some q ∧ hasKind q.faults .envelopeMiss = true ∧ q.insertDone = true))) ∧
    ∀ (i : Slot) (r : SetRecord), s.carrier 8 = some i → s.setAt i = some r →
      (s.motion = true → r.faults = 0 → r.insertDone = false → s.track.head.insert = none → s.track.head.pocket = .staged → s.Calm →
        ∃ t, exec .insertRequest s = .next t ∧ t.fixed = s.fixed ∧ t.flow = s.flow ∧
          t.track.head.insert = some ⟨s.time, s.cfg.insertTime⟩) ∧
      (s.motion = true → r.faults = 0 → r.insertDone = false → s.track.head.insert = none → s.track.head.pocket = .empty →
        s.track.head.refill = none →
        ∃ t q, exec .insertRequest s = .next t ∧ t.fixed = s.fixed ∧ t.flow = s.flow ∧ t.track.head.insert = none ∧
          t.track.head.pocket = .refilling ∧ t.setAt i = some q ∧ q.insertDone = true ∧ hasKind q.faults .envelopeMiss = true ∧
          (s.mon.envelope.level + s.cfg.envelopeMon.u < s.cfg.envelopeMon.t →
            t.mon.envelope = ⟨s.mon.envelope.level + s.cfg.envelopeMon.u, s.mon.envelope.good⟩ ∧
            t.track.head.refill = some ⟨s.time, s.cfg.envelopeRefillTime⟩) ∧
          (s.cfg.envelopeMon.t ≤ s.mon.envelope.level + s.cfg.envelopeMon.u →
            t.mon.envelope = ⟨0, 0⟩ ∧ t.line.state = .faultStop ∧ t.line.stopReason = some .envelopeMonitor ∧
            t.track.head.refill = none)) ∧
      (s.track.head.insert ≠ none → ∀ c result,
        (c, result) ∈ [(Instr.insertCompletion .good, InsertResult.good), (.insertCompletion .envelopeMiss, .envelopeMiss),
          (.insertCompletion .insertFail, .insertFail), (.insertTimeout, .insertFail)] →
        ∃ (t w u : State) (q : SetRecord) (cause : TripCause), exec c s = .next t ∧ t.fixed = s.fixed ∧ t.flow = s.flow ∧
          t.setAt i = some q ∧ q.insertDone = true ∧ r.faults &&& q.faults = r.faults ∧
          (result = .envelopeMiss → hasKind q.faults .envelopeMiss = true) ∧
          (result = .insertFail → hasKind q.faults .insertFail = true) ∧
          t.track.head.insert = none ∧ t.track.head.pocket = .refilling ∧
          (s.jobOpen = false → t.mon = s.mon) ∧
          (result = .good → s.jobOpen = true →
            t.mon.envelope = if s.mon.envelope.good + 1 < s.cfg.envelopeMon.d
              then ⟨s.mon.envelope.level, s.mon.envelope.good + 1⟩ else ⟨s.mon.envelope.level - 1, 0⟩) ∧
          (result ≠ .good → s.jobOpen = true → s.mon.envelope.level + s.cfg.envelopeMon.u < s.cfg.envelopeMon.t →
            t.mon.envelope = ⟨s.mon.envelope.level + s.cfg.envelopeMon.u, s.mon.envelope.good⟩) ∧
          (result ≠ .good → s.jobOpen = true → s.cfg.envelopeMon.t ≤ s.mon.envelope.level + s.cfg.envelopeMon.u →
            t.mon.envelope = ⟨0, 0⟩ ∧
            (s.motion = true ∨ s.line.state = .pausing →
              t.line.state = .faultStop ∧ t.line.stopReason = some .envelopeMonitor ∧ t.track.head.refill = none)) ∧
          (s.motion = true → s.track.head.refill = none →
            result = .good ∨ s.mon.envelope.level + s.cfg.envelopeMon.u < s.cfg.envelopeMon.t →
            t.track.head.refill = some ⟨s.time, s.cfg.envelopeRefillTime⟩) ∧
          -- what the command itself does, before every block tests its conditions
          t = react u ∧ cause = (if result = .envelopeMiss then .envelopeMiss else .insertFail) ∧
          w = { s with
            track.head.insert := none, track.head.pocket := .refilling
            reg.pool := s.reg.pool.set i.val (some { r with
              insertDone := true
              faults := r.faults ||| (match result with
                | .good => 0
                | .envelopeMiss => faultMask .envelopeMiss
                | .insertFail => faultMask .insertFail) }) i.isLt } ∧
          (result = .good → s.jobOpen = true →
            u = { w with mon.envelope := if s.mon.envelope.good + 1 < s.cfg.envelopeMon.d
              then ⟨s.mon.envelope.level, s.mon.envelope.good + 1⟩ else ⟨s.mon.envelope.level - 1, 0⟩ }) ∧
          (s.jobOpen = false → u = w) ∧
          (result ≠ .good → s.jobOpen = true →
            u = if s.mon.envelope.level + s.cfg.envelopeMon.u < s.cfg.envelopeMon.t
              then { w with mon.envelope := ⟨s.mon.envelope.level + s.cfg.envelopeMon.u, s.mon.envelope.good⟩ }
              else faultStop .envelopeMonitor (queueReport (.monitorTrip .envelope cause
                (s.mon.envelope.level + s.cfg.envelopeMon.u) s.cfg.envelopeMon .stop
                (if s.motion = true ∨ s.line.state = .pausing then .stopped
                  else if s.line.state = .faultStop then .alreadyStopped else .atRest) r.piece)
                { w with mon.envelope := ⟨0, 0⟩ })))

/-- R113, R114, R98: a scan and a weighing are requested for the carrier at P10 that awaits them. A scan's record or timeout writes the
scan result, with WINDOW_MISMATCH or WINDOW_NO_READ; a weight record writes the measured weight, clamped to 65,535 cg, with
WEIGHT_MISMATCH past the tolerance and OVERWEIGHT past the last step bound. A scan that reads the set's piece gives the EXIT monitor a good
event, and any other a fault event, which may trip it (R52, R53: with no job open the monitor takes none; every block then tests its
conditions, `react`, log entry 4). With nothing outstanding each is ignored. -/
def Obligations.ExitChecksRun : Prop :=
  (∀ (s : State) (c : Instr),
    (s.track.scan = none ∧ ((∃ p, c = .scanRecord p) ∨ c = .scanTimeout)) ∨
      (s.track.weigh = none ∧ ((∃ w, c = .weightRecord w) ∨ c = .weighTimeout)) →
      ∃ t, exec c s = .next t ∧ t = react s ∧ t.fixed = s.fixed ∧ (s.NoSweep → t.flow = s.flow)) ∧
  ∀ (i : Slot) (r : SetRecord) (s : State), s.NoSweep → s.carrier 10 = some i → s.setAt i = some r →
    (s.motion = true → r.faults = 0 → r.scan = none → s.track.scan = none →
      ∃ t, exec .scanRequest s = .next t ∧
        { t with track.scan := none, track.zones := s.track.zones, coll.feedHold := s.coll.feedHold } = s ∧
        t.track.scan = some ⟨s.time, s.cfg.scanTime⟩) ∧
    (s.motion = true → r.faults = 0 → s.cfg.scaleEnabled = true → r.measured = none → s.track.weigh = none →
      ∃ t, exec .weighRequest s = .next t ∧
        { t with track.weigh := none, track.zones := s.track.zones, coll.feedHold := s.coll.feedHold } = s ∧
        t.track.weigh = some ⟨s.time, s.cfg.weighTime⟩) ∧
    (s.track.scan ≠ none → ∀ c read, (∃ p : Option (BitVec 24), c = .scanRecord p ∧ read = p.map BitVec.toNat) ∨
        (c = .scanTimeout ∧ read = none) →
      ∃ t q, exec c s = .next t ∧ t.fixed = { s.fixed with exitMonitor := t.mon.exit } ∧
        q = (match read with
          | some p => { r with
              scan := some (.read p)
              faults := if r.piece = some p then r.faults else r.faults ||| faultMask .windowMismatch }
          | none => { r with scan := some .noRead, faults := r.faults ||| faultMask .windowNoRead }) ∧
        t.HoldsSet i q ∧ t.flow = s.flow.put i (some q) ∧
        -- R50 to R53, R113: the event given to the EXIT monitor
        ∃ (w u : State) (good : Bool) (cause : TripCause), t = react u ∧ t.mon.exit = u.mon.exit ∧
          good = decide (read ≠ none ∧ read = r.piece) ∧ cause = (if read = none then .windowNoRead else .windowMismatch) ∧
          w = { s with track.scan := none, reg.pool := s.reg.pool.set i.val (some q) i.isLt } ∧
          (s.jobOpen = false → u = w) ∧
          (good = true → s.jobOpen = true → u = { w with mon.exit := if s.mon.exit.good + 1 < s.cfg.exitMon.d
            then ⟨s.mon.exit.level, s.mon.exit.good + 1⟩ else ⟨s.mon.exit.level - 1, 0⟩ }) ∧
          (good = false → s.jobOpen = true → s.mon.exit.level + s.cfg.exitMon.u < s.cfg.exitMon.t →
            u = { w with mon.exit := ⟨s.mon.exit.level + s.cfg.exitMon.u, s.mon.exit.good⟩ }) ∧
          (good = false → s.jobOpen = true → s.cfg.exitMon.t ≤ s.mon.exit.level + s.cfg.exitMon.u →
            u = faultStop .exitMonitor (queueReport (.monitorTrip .exit cause (s.mon.exit.level + s.cfg.exitMon.u) s.cfg.exitMon .stop
              (if s.motion = true ∨ s.line.state = .pausing then .stopped
                else if s.line.state = .faultStop then .alreadyStopped else .atRest) r.piece)
              { w with mon.exit := ⟨0, 0⟩ }))) ∧
    (s.track.weigh ≠ none → ∀ w : BitVec 24,
      ∃ t m q, exec (.weightRecord w) s = .next t ∧ t.fixed = s.fixed ∧ m = min w.toInt.toNat 65535 ∧
        q = { r with
          measured := some m
          faults := r.faults |||
            (match r.expected with
              | some e => if s.cfg.weightBase + r.received * s.cfg.weightPerSheet < max m e - min m e then faultMask .weightMismatch else 0
              | none => 0) |||
            (match s.postal.steps.bind List.getLast? with
              | some b => if b < m then faultMask .overweight else 0
              | none => 0) } ∧
        t.HoldsSet i q ∧ t.flow = s.flow.put i (some q))

/-- R91, R119, R117, R120: the exit-clear input's new level is held, high arming the EXIT_BLOCKED report again. The late bin's clear reports
the count, makes it 0 and arms its report. A sensor's clear clears the zone that it jammed and cancels its timer. A sensor that becomes
blocked while its zone is in motion starts its jam timer, with the zone's jam time, and the timers of the others run on; while its zone is
not in motion no timer of the zone runs. A zone that enters motion starts the timer of each blocked sensor, and one that leaves motion
cancels them all: so it stands after every command. When the blocks have tested their conditions (`react`), the timers of a zone that was
in motion and still is run on, and those of one that has entered motion start at that time (log entry 21). FEED is in motion while a feed is
outstanding or the gate stands PASSING, FOLD while a move, a fold or a release forward is outstanding, TRACK while an index is, and SORT
while a delivery is. -/
def Obligations.TrackInputsTaken : Prop :=
  (∀ (s t : State), s.JamOk → step s = .next t → t.JamOk) ∧
  (∀ (s : State) (z k : Fin 4), (react s).track.zones[z].motion = (react s).zoneMotion z ∧
    (react s).track.zones[z].sensors[k].blocked = s.track.zones[z].sensors[k].blocked ∧
    (react s).track.zones[z].sensors[k].timer =
      if (react s).zoneMotion z = false then none
      else if s.track.zones[z].motion = true ∧ s.zoneMotion z = true then s.track.zones[z].sensors[k].timer
      else if s.track.zones[z].sensors[k].blocked = true
      then some ⟨s.time, #v[s.cfg.jamFeed, s.cfg.jamFold, s.cfg.jamTrack, s.cfg.jamSort][z]⟩ else none) ∧
  (∀ s : State,
    (s.zoneMotion 0 = true ↔ (∃ tag reads x, s.coll.transit = .feeding tag reads x) ∨ ∃ i, s.sets.gate = .passing i) ∧
    (s.zoneMotion 1 = true ↔ (∃ p1 p2 x, s.sets.folder = .moving p1 p2 x) ∨ (∃ x, s.sets.folder = .folding x) ∨
      ∃ x, s.sets.release = .forward x) ∧
    (s.zoneMotion 2 = true ↔ s.track.index ≠ none) ∧ (s.zoneMotion 3 = true ↔ s.track.delivery ≠ none)) ∧
  (∀ s : State, s.NoSweep →
    (∀ high, ∃ t, exec (.exitClearChange high) s = .next t ∧ t.fixed = { s.fixed with exitClear := high } ∧ t.flow = s.flow ∧
      (s.line.state.atRest = true → t.track.exitArmed = (high || s.track.exitArmed))) ∧
    (∃ t, exec .lateBinClear s = .next t ∧ t.fixed = { s.fixed with lateCount := 0 } ∧ t.flow = s.flow ∧
      (s.line.state.atRest = true → t.track.lateArmed = true ∧
        t.link = (queueReport (.binChange .late .cleared none none (some s.track.lateCount) none none) s).link)) ∧
    ∀ (z k : Fin 4) (blocked : Bool),
      ∃ t x, exec (.jamSensor (BitVec.ofNat 8 z.val) (BitVec.ofNat 8 (k.val + 1)) blocked) s = .next t ∧
        x = s.fixed.zones[z] ∧ t.flow = s.flow ∧
        t.fixed = { s.fixed with zones := s.fixed.zones.set z.val { x with
          jammed := if blocked = false ∧ x.jammed = some k then none else x.jammed
          sensors := x.sensors.set k.val ⟨blocked, none⟩ k.isLt } z.isLt } ∧
        (s.Calm → s.zoneMotion z = true → s.track.zones[z].motion = true →
          t.track.zones[z].motion = true ∧
          t.track.zones[z].sensors[k].timer = (if blocked = false then none
            else if s.track.zones[z].sensors[k].blocked = true then s.track.zones[z].sensors[k].timer
            else some ⟨s.time, #v[s.cfg.jamFeed, s.cfg.jamFold, s.cfg.jamTrack, s.cfg.jamSort][z]⟩) ∧
          ∀ j : Fin 4, j ≠ k → t.track.zones[z].sensors[j].timer = s.track.zones[z].sensors[j].timer) ∧
        (s.line.state.atRest = true → s.zoneMotion z = false →
          t.track.zones[z].motion = false ∧ ∀ j : Fin 4, t.track.zones[z].sensors[j].timer = none)) ∧
  (∀ (s : State) (i : Slot), s.sets.gate = .closed (some i) → s.sets.accumulator = none → s.working = true →
      s.track.zones[0].motion = false →
      ∃ t, exec .sheetGateOpen s = .next t ∧ t.track.zones[0].motion = true ∧
        ∀ k : Fin 4, t.track.zones[0].sensors[k].timer =
          if s.track.zones[0].sensors[k].blocked then some ⟨s.time, s.cfg.jamFeed⟩ else none) ∧
  (∀ (s : State) (i : Slot) (r : SetRecord) (closes : Bool), s.line.state.atRest = true → s.sets.gate = .passing i →
      s.setAt i = some r → s.coll.transit = .decided i closes →
      ∃ t, exec .sheetIn s = .next t ∧ t.track.zones[0].motion = false ∧
        ∀ k : Fin 4, t.track.zones[0].sensors[k].timer = none)

/-! ### The Presort Unit and the manifest -/

/-- R116, R124, R125, R129 to R133, R142: the sort group of a key is that of the scheme entry with the longest prefix that the key's digits
begin with, and 255 with none or no key; the scheme holds no prefix twice; and the step of a weight is the lowest whose bound is at or above
it, none above them all. The assignment of the set without a fault at P11 looks its group up from its key. The bin is that
of B1 to B10 whose open tray has the group, or else the lowest that is FREE, or else BR; a FREE bin opens the next tray. The piece joins
the tray, which closes when it reaches the count capacity or the weight threshold. With BR SWAP no bin is assigned, and SORT_BLOCKED is
queued once. Every block then tests its conditions (`react`, log entry 4). -/
def Obligations.BinAssignedAtP11 : Prop :=
  -- R124, R125: the group of a key
  (∀ (s t : State), SchemeOk s.postal.scheme → step s = .next t → SchemeOk t.postal.scheme) ∧
  (∀ scheme : Vector (Option SchemeEntry) 256, SchemeOk scheme → lookupGroup scheme none = 255 ∧
    ∀ key : Nat,
      ((∀ (j : Fin 256) e, scheme[j] = some e → ¬ e.Matches key) → lookupGroup scheme (some key) = 255) ∧
      ∀ (j : Fin 256) e, scheme[j] = some e → e.Matches key →
        (∀ (k : Fin 256) y, scheme[k] = some y → y.Matches key → y.len ≤ e.len) → lookupGroup scheme (some key) = e.group) ∧
  -- R142: the step of a weight
  (∀ (bounds : List Nat) (w : Nat),
    (∀ k, stepOf (some bounds) w = some k ↔ ∃ b, bounds[k]? = some b ∧ w ≤ b ∧ ∀ j x, j < k → bounds[j]? = some x → x < w) ∧
    (stepOf (some bounds) w = none ↔ ∀ b ∈ bounds, b < w) ∧ stepOf none w = none) ∧
  ∀ (i : Slot) (r : SetRecord) (rec : PieceRecord) (p g w step : Nat) (b : BinId) (s : State),
    s.motion = true → s.carrier 11 = some i → s.setAt i = some r → r.faults = 0 → r.bin = none → r.record = some rec →
    r.piece = some p → g = lookupGroup s.postal.scheme rec.key → w = r.postageWeight → stepOf s.postal.steps w = some step → step < 8 →
    (b.val < 10 ∧ g < 255 ∧ (∃ y, (s.bin b).state = .open y ∧ y.group = g) ∧
        (∀ a : BinId, a < b → ¬ ∃ y, (s.bin a).state = .open y ∧ y.group = g)) ∨
      (b.val < 10 ∧ g < 255 ∧ (s.bin b).state = .free ∧ (∀ a : BinId, a < b → (s.bin a).state ≠ .free) ∧
        (∀ a : BinId, a.val < 10 → ¬ ∃ y, (s.bin a).state = .open y ∧ y.group = g)) ∨
      (b = 10 ∧ (255 ≤ g ∨ ∀ a : BinId, a.val < 10 → (s.bin a).state ≠ .free ∧ ¬ ∃ y, (s.bin a).state = .open y ∧ y.group = g)) →
    ((s.bin b).state = .swap → ∃ u, exec .binAssignment s = .next (react u) ∧
      u = { s with track.assignDue := false, track.sortReported := true, link :=
        if s.track.sortReported then s.link else (queueReport (.sortBlocked (some p) g 10) s).link }) ∧
    ((s.bin b).state ≠ .swap → ∃ (u : State) (y z : Tray), exec .binAssignment s = .next (react u) ∧
      y = (match (s.bin b).state with
        | .open y => y
        | _ => { number := s.presort.nextTray.getD 1, group := if b = 10 then 255 else g, count := 0, weight := 0
                 steps := .replicate 8 0, first := p, last := p, openTime := s.time }) ∧
      z = { y with count := y.count + 1, weight := y.weight + w, steps := bumpStep y.steps step (· + 1), last := p } ∧
      u.setAt i = some { r with bin := some b, tray := some y.number, group := some g, step := some step } ∧
      (∀ j, j ≠ i → u.setAt j = s.setAt j) ∧ u.flow = s.flow ∧ u.fixed = s.fixed ∧ u.track.lateGate = .sort ∧
      u.presort.nextTray = (if (s.bin b).state = .free then
          some (if 65535 ≤ y.number then 1 else y.number + 1) else s.presort.nextTray) ∧
      (∀ a, a ≠ b → u.bin a = s.bin a) ∧ (u.bin b).onWay = (s.bin b).onWay + 1 ∧
      (z.count ≠ s.cfg.trayCount → z.weight < s.cfg.trayWeight - ((s.postal.steps.bind List.getLast?).getD 0) →
        (u.bin b).state = .open z ∧ u.postage = s.postage) ∧
      (∀ cause, (z.count = s.cfg.trayCount ∧ cause = .count) ∨
          (z.count ≠ s.cfg.trayCount ∧ s.cfg.trayWeight - ((s.postal.steps.bind List.getLast?).getD 0) ≤ z.weight ∧ cause = .weight) →
        (u.bin b).state = .swap ∧ (u.bin b).lastTray = some z.number ∧
        u.postage.manifest = s.postage.manifest ++ [s.closeEntry b z cause]))

/-- R118, R39, R36, R58, R59, R135, R161: the bin entry of the piece's bin, while its delivery is outstanding, delivers it: PIECE_DELIVERED is
queued, the set leaves flight, a matched piece becomes DELIVERED and the base advances, the counter rises, the transport is empty, and the
bin has one piece fewer on its way. A set started in PROVING counts while proving is in force; the count that reaches P passes proving, with
PROVING_DONE, and takes PROVING to RUNNING, or in PAUSING the return state. Every block then tests its conditions (`react`, log entry 4).
An entry that names another bin, or with no delivery outstanding, is ignored: nothing but the blocks' own tests follows. -/
def Obligations.BinEntryDelivers : Prop :=
  (∀ (s : State) (c : Instr) (code : Byte), c = .binEntry code → s.track.delivery = none ∨
      (∀ i r b, s.track.transport = some i → s.setAt i = some r → r.bin = some b → code ≠ BitVec.ofNat 8 (b.val + 1)) →
      ∃ t, exec c s = .next t ∧ t = react s ∧ t.fixed = s.fixed ∧ (s.NoSweep → t.flow = s.flow)) ∧
  -- R58, R59, R118, R161: what the delivery itself does; every block then tests its conditions
  (∀ (i : Slot) (r : SetRecord) (b : BinId) (s : State), s.track.delivery ≠ none → s.track.transport = some i → s.setAt i = some r →
      r.bin = some b →
    ∃ (counts passes : Bool) (window : List (Nat × PieceState)) (u : State),
      (counts = true ↔ s.ProvingCounts r) ∧
      (passes = true ↔ counts = true ∧ s.mon.provingGood + 1 = s.cfg.provingP) ∧
      window = (match r.record, r.piece with
        | some _, some p => windowSet s.reg.window p .delivered
        | _, _ => s.reg.window) ∧
      exec (.binEntry (BitVec.ofNat 8 (b.val + 1))) s = .next (react u) ∧
      u = { s with
        reg := { s.reg with
          pool := s.reg.pool.set i.val none i.isLt
          base := (advanceBase s.reg.base window).1, window := (advanceBase s.reg.base window).2
          counters := { s.reg.counters with delivered := min (s.reg.counters.delivered + 1) 4294967295 } }
        mon := { s.mon with
          provingGood := if counts then s.mon.provingGood + 1 else s.mon.provingGood
          proving := if passes then .passed else s.mon.proving }
        track := { s.track with
          transport := none, delivery := none, assignDue := s.track.assignDue || (passes && s.line.state == .proving) }
        presort.bins := s.presort.bins.set b.val { s.bin b with onWay := (s.bin b).onWay - 1 } b.isLt
        line := { s.line with
          state := if passes = true ∧ s.line.state = .proving then .running else s.line.state
          returnState := if passes = true ∧ s.line.state = .pausing then some .running else s.line.returnState }
        link := (queueReports ([.pieceDelivered r.piece r.tray (some b) r.postageWeight r.step r.marginal
            (hasKind r.faults .disturbed) false] ++
          (if passes then [.provingDone .passed (s.mon.provingGood + 1) s.mon.provingFault s.cfg.provingP s.cfg.provingM none]
            else []) ++
          (if passes = true ∧ s.line.state = .proving then [.stateChange .running .proving .provingPassed] else [])) s).link }) ∧
  ∀ (i : Slot) (r : SetRecord) (b : BinId) (s : State), s.NoSweep → s.track.transport = some i → s.setAt i = some r → r.bin = some b →
    (s.track.delivery ≠ none → ∃ t window, exec (.binEntry (BitVec.ofNat 8 (b.val + 1))) s = .next t ∧ t.fixed = s.fixed ∧
      window = (match r.record, r.piece with
        | some _, some p => windowSet s.reg.window p .delivered
        | _, _ => s.reg.window) ∧
      t.flow = { s.flow.put i none with
        transport := none
        register := { s.flow.register with
          counters := { s.reg.counters with delivered := min (s.reg.counters.delivered + 1) 4294967295 }
          base := (advanceBase s.reg.base window).1, window := (advanceBase s.reg.base window).2 } } ∧
      (s.carrier 11 = none → t.postage = s.postage ∧ (t.bin b).onWay = (s.bin b).onWay - 1 ∧ (t.bin b).state = (s.bin b).state ∧
        ∀ a, a ≠ b → t.bin a = s.bin a) ∧
      (s.Calm → t.track.delivery = none))

/-- R134: a bin's clear is taken in every line state. A SWAP bin with no piece on its way becomes FREE and BIN_CHANGE gives FREE with the
last tray; with a piece on its way it is ignored, with IGNORED; a clear of an OPEN or FREE bin, or of no sort bin, is ignored with no
report. The Track Controller is told, so that a carrier held at P11 asks again when every block tests its conditions (`react`, log entry 4). That
the bin cleared keeps the number of its last tray is the model's choice (log entry 27). -/
def Obligations.BinClearFreesSwapBin : Prop :=
  ∀ s : State,
    (∀ b : BinId, ∃ u, exec (.sortBinClear (BitVec.ofNat 8 (b.val + 1))) s = .next (react u) ∧ u.track.assignDue = true ∧
      { u with presort := s.presort, link := s.link, track.assignDue := s.track.assignDue } = s ∧
      (∀ a, a ≠ b → u.bin a = s.bin a) ∧
      ((s.bin b).state = .swap → (s.bin b).onWay = 0 → u.bin b = { s.bin b with state := .free } ∧
        u.link = (queueReport (.binChange (.sort b) .free (s.bin b).lastTray none none none none) s).link) ∧
      ((s.bin b).state = .swap → (s.bin b).onWay ≠ 0 → u.bin b = s.bin b ∧
        u.link = (queueReport (.binChange (.sort b) .ignored (s.bin b).lastTray none none none none) s).link) ∧
      ((s.bin b).state ≠ .swap → u.bin b = s.bin b ∧ u.link = s.link)) ∧
    ∀ code : Byte, code.toNat = 0 ∨ 11 < code.toNat → exec (.sortBinClear code) s = .next (react s)

/-- R144: a closing tray is DIRECT when its group, 0 to 254, is of level DIRECT and its count reaches the DIRECT minimum, otherwise AREA
when its group is 0 to 254 and its count reaches the AREA minimum, and otherwise MIXED. -/
def Obligations.TrayLevelDecided : Prop :=
  ∀ (p : Postal) (g c : Nat),
    (trayLevel p g c = .direct ↔ ∃ h : g < 255, p.levels[g] = .direct ∧ p.minDirect ≤ c) ∧
    (trayLevel p g c = .area ↔ (¬ ∃ h : g < 255, p.levels[g] = .direct ∧ p.minDirect ≤ c) ∧ g < 255 ∧ p.minArea ≤ c) ∧
    (trayLevel p g c = .mixed ↔ (¬ ∃ h : g < 255, p.levels[g] = .direct ∧ p.minDirect ≤ c) ∧ ¬ (g < 255 ∧ p.minArea ≤ c))

/-- R145, and what R132, R146, R147 and R151 give the close of a tray: one manifest entry joins at the newest end, priced at the sum over the eight steps of
the step's count times the rate of the tray's level; the totals of its level and the pieces in closed trays rise, stopping at
4,294,967,295; and the bin becomes SWAP with the tray's number. The other bins and totals stand. -/
def Obligations.ClosedTrayListedAndPriced : Prop :=
  ∀ (b : BinId) (y : Tray) (cause : CloseCause) (s : State) (job : Job), (s.bin b).state = .open y → s.reg.job = some job →
    ∃ (l : Level) (e : ManifestEntry), l = trayLevel s.postal y.group y.count ∧
      e = { job := job.code, tray := y.number, bin := b, group := y.group, count := y.count, weight := y.weight, steps := y.steps
            first := y.first, last := y.last, openTime := y.openTime, closeTime := s.time, cause, level := l
            postage := ((List.finRange 8).map fun k =>
              y.steps[k] * (match l with | .direct => s.postal.rates[0] | .area => s.postal.rates[1] | .mixed => s.postal.rates[2])[k]).sum
            revision := s.postal.revision, withdrawn := 0 } ∧
      (closeBin b cause s).postage.manifest = s.postage.manifest ++ [e] ∧
      (closeBin b cause s).postage.retained = s.postage.retained ∧
      (closeBin b cause s).postage.totals l = ⟨min ((s.postage.totals l).trays + 1) 4294967295,
        min ((s.postage.totals l).pieces + y.count) 4294967295, min ((s.postage.totals l).postage + e.postage) 4294967295⟩ ∧
      (∀ k, k ≠ l → (closeBin b cause s).postage.totals k = s.postage.totals k) ∧
      (closeBin b cause s).postage.closedPieces = min (s.postage.closedPieces + y.count) 4294967295 ∧
      (closeBin b cause s).bin b = ⟨.swap, some y.number, (s.bin b).onWay⟩ ∧ (∀ a, a ≠ b → (closeBin b cause s).bin a = s.bin a) ∧
      (closeBin b cause s).link = (queueReport (.binChange (.sort b) .swap (some y.number) (some y.group) (some y.count) none (some cause))
        (queueReport (.trayClosed y.number b y.group y.count l e.postage cause none none) s)).link

/-- R137, R149, R150: CloseTray closes an OPEN tray with cause HOST when the free manifest entries outnumber the unassigned sets, an
outstanding feed counted among them, and is refused with NO_SPACE otherwise, WRONG_STATE for a bin not OPEN, BAD_VALUE for no bin
(the fields of refusals and the codes of the modes: log entry 12). FetchManifest NEXT removes and returns up to its count of 1 to 4 of the oldest entries and retains them; REPEAT returns the retained ones
and changes nothing; another count is refused in both modes (log entry 28), and a mode outside the two. The tray number given for a FREE bin is the last tray kept past
its clear (log entry 27), or the tray before a discarded one (log entry 34). -/
def Obligations.TraysClosedAndFetchedByHost : Prop :=
  ∀ (tag : Byte) (s : State), s.link.held = none →
    (∀ (b : BinId) (y : Tray), (s.bin b).state = .open y →
      (s.unassigned + (if s.feeding then 1 else 0) < 64 - s.postage.manifest.length →
        exec (.closeTray tag [BitVec.ofNat 8 (b.val + 1)]) s = .next
          (holdReply tag 0x31 ⟨.ok, [0x02] ++ toBytes 2 y.number ++ toBytes 1 (64 - (s.postage.manifest.length + 1))⟩ false
            (react (closeBin b .host s)))) ∧
      (64 - s.postage.manifest.length ≤ s.unassigned + (if s.feeding then 1 else 0) →
        exec (.closeTray tag [BitVec.ofNat 8 (b.val + 1)]) s = .next (s.answered tag 0x31 .noSpace
          ([0x01] ++ toBytes 2 y.number ++ toBytes 1 (64 - s.postage.manifest.length))))) ∧
    (∀ b : BinId, (∀ y, (s.bin b).state ≠ .open y) →
      exec (.closeTray tag [BitVec.ofNat 8 (b.val + 1)]) s = .next (s.answered tag 0x31 .wrongState
        ([if (s.bin b).state = .free then 0x00 else 0x02] ++ optBytes 2 (s.bin b).lastTray ++ toBytes 1 (64 - s.postage.manifest.length)))) ∧
    (∀ code : Byte, code.toNat = 0 ∨ 11 < code.toNat →
      exec (.closeTray tag [code]) s = .next (s.answered tag 0x31 .badValue ([0xFF, 0xFF, 0xFF] ++ toBytes 1 (64 - s.postage.manifest.length)))) ∧
    (∀ n : Byte, 1 ≤ n.toNat → n.toNat ≤ 4 →
      exec (.fetchManifestNext tag [0x00, n]) s = .next
        (holdReply tag 0x35 ⟨.ok, toBytes 1 (s.postage.manifest.take n.toNat).length ++
            toBytes 1 (s.postage.manifest.drop n.toNat).length ++ (s.postage.manifest.take n.toNat).flatMap manifestBytes⟩ false
          (react { s with
            postage.manifest := s.postage.manifest.drop n.toNat, postage.retained := s.postage.manifest.take n.toNat })) ∧
      exec (.fetchManifestRepeat tag [0x01, n]) s = .next (s.answered tag 0x35 .ok
        (toBytes 1 s.postage.retained.length ++ toBytes 1 s.postage.manifest.length ++ s.postage.retained.flatMap manifestBytes))) ∧
    (∀ n : Byte, n.toNat = 0 ∨ 4 < n.toNat → ∀ c ∈ [Instr.fetchManifestNext tag [0x00, n], .fetchManifestRepeat tag [0x01, n]],
      exec c s = .next (s.answered tag 0x35 .badValue ([0x00] ++ toBytes 1 s.postage.manifest.length))) ∧
    (∀ mode n : Byte, 1 < mode.toNat → ∀ c ∈ [Instr.fetchManifestNext tag [mode, n], .fetchManifestRepeat tag [mode, n]],
      exec c s = .next (s.answered tag 0x35 .badValue ([0x00] ++ toBytes 1 s.postage.manifest.length)))



/-! ### Line Control -/

/-- What the blocks do at the end of a command (R5, R84, R98, R99, R123, R164): their own tests, made in the order of log entry 5, leave what `fixed` and `flow` show; a line
at rest starts nothing, so that only the jam timers and the feed hold shown are brought up to date; and a line that pauses becomes PAUSED
exactly when no section has anything outstanding. -/
def Obligations.BlocksTestTheirConditions : Prop :=
  ∀ s : State,
    (react s).fixed = s.fixed ∧ (s.NoSweep → (react s).flow = s.flow) ∧
    (s.line.state.atRest = true →
      { react s with track.zones := s.track.zones, coll.feedHold := s.coll.feedHold } = s) ∧
    (s.line.state = .pausing →
      (s.notAtRest = noSections → (react s).line = { s.line with state := .paused, pendingPause := noSections } ∧
        (react s).link = (queueReport (.stateChange .paused .pausing .pauseDone) s).link) ∧
      (s.notAtRest ≠ noSections → (react s).line = { s.line with pendingPause := s.notAtRest } ∧ (react s).link = s.link) ∧
      (react s).sets = s.sets ∧ (react s).reg = s.reg)

/-- R158, R47, R23, R48, R104, R111, R127, R151: OpenJob that passes its checks opens the job: the register, the Collation Unit, the
monitors, the tray numbers and the totals take their values, enabled OFF stations and EMPTY stations begin their refills, and the line
enters JOB_IDLE. The checks are made in order and a refused request changes nothing but its reply (its fields: log entry 12). A job code or
first piece of 0, a mode or mask outside its values and a skip limit outside 1 to 16 are refused; FF stands for the configuration's default
mask and skip limit. -/
def Obligations.OpenJobOpens : Prop :=
  ∀ (tag : Byte) (body : List Byte) (s : State), s.link.held = none → bodyLengthOk 0x20 body.length = true →
    (∀ j bound, s.line.state = .ready → s.line.interlock = .closed → parseJob s.cfg body = some j →
      s.postal.steps.bind List.getLast? = some bound → bound < s.cfg.trayWeight →
      ∃ t, exec (.openJob tag body) s = .next t ∧
        t.link.held = some ⟨tag, 0x20, ⟨.ok, toBytes 2 j.code ++ toBytes 3 j.first⟩, false⟩ ∧
        t.reg = { Register.reset with base := j.first, filter := s.reg.filter, job := some j } ∧
        t.coll = { Collation.reset with state := .setStart } ∧ t.mon = .reset ∧ t.sets = s.sets ∧
        (∀ n : StationId, (t.station n).state =
          if ((s.station n).state = .off ∧ s.plant.stations[n].enabled = true) ∨ (s.station n).state = .empty then .refilling
          else (s.station n).state) ∧
        (∀ n : StationId, ((s.station n).state = .off ∧ s.plant.stations[n].enabled = true) ∨ (s.station n).state = .empty →
          (t.station n).seq = .waiting 1) ∧
        t.track.head.pocket = (if s.track.head.pocket = .empty then .refilling else s.track.head.pocket) ∧
        t.presort = { s.presort with nextTray := some 1 } ∧
        t.postage = { Postage.reset with manifest := s.postage.manifest, retained := s.postage.retained } ∧
        t.line = { s.line with
          state := .jobIdle, returnState := none, origin := none, stopReason := none, runoutTarget := .none, purgeHeldDone := false } ∧
        t.plant = s.plant ∧ t.postal = s.postal ∧ t.time = s.time) ∧
    (∀ code, (if s.line.state ≠ .ready ∨ s.line.interlock = .opened then code = Result.wrongState
        else if parseJob s.cfg body = none then code = .badValue
        else match s.postal.steps.bind List.getLast? with
          | none => code = .wrongState
          | some bound => s.cfg.trayWeight ≤ bound ∧ code = .badValue) →
      exec (.openJob tag body) s = .next (s.answered tag 0x20 code [0xFF, 0xFF, 0x00, 0x00, 0x00])) ∧
    -- the values refused, and the identity of the job that opens
    (∀ x : RawJob, x.Fits → body = x.bytes → s.line.state = .ready → s.line.interlock = .closed →
      (x.Refused → exec (.openJob tag body) s = .next (s.answered tag 0x20 .badValue [0xFF, 0xFF, 0x00, 0x00, 0x00])) ∧
      (¬ x.Refused → ∀ bound, s.postal.steps.bind List.getLast? = some bound → bound < s.cfg.trayWeight →
        ∃ t, exec (.openJob tag body) s = .next t ∧ t.reg.job = some (x.job s.cfg) ∧ t.reg.base = x.first))

/-- R159, R160, R162, R165: StartLine takes JOB_IDLE to PURGE with its pitches and refills, and on at once where the purge count is 0. Pause
takes PURGE, PROVING and RUNNING to PAUSING, and to PAUSED where nothing is outstanding. Resume takes PAUSED to its return state and refills
the EMPTY stations; every block then tests its conditions (`react`, log entry 4). In the other states each is refused. -/
def Obligations.StartPauseAndResume : Prop :=
  (∀ (tag : Byte) (s : State), s.link.held = none →
      (s.line.state = .jobIdle → s.line.key = .run → (∀ z : Fin 4, s.track.zones[z].jammed = none) → s.NoSweep →
        s.track.head.pocket ≠ .empty →
        ∃ t, exec (.startLine tag []) s = .next t ∧ t.flow = s.flow ∧
          t.fixed = { s.fixed with held := some ⟨tag, 0x22, ⟨.ok, []⟩, false⟩ } ∧
          t.track.purgePitches = s.cfg.purgeCount ∧ t.line.purgeHeldDone = false ∧
          t.line.state = (if s.cfg.purgeCount ≠ 0 then .purge else if s.cfg.provingP = 0 then .running else .proving) ∧
          ∀ n : StationId, ((s.station n).state = .off ∧ s.plant.stations[n].enabled = true) ∨ (s.station n).state = .empty →
            (t.station n).state = .refilling) ∧
      (s.line.state ≠ .jobIdle ∨ s.line.key = .setup ∨ (∃ z : Fin 4, s.track.zones[z].jammed ≠ none) →
        exec (.startLine tag []) s = .next (s.answered tag 0x22 .wrongState []))) ∧
  (∀ (tag : Byte) (s : State), s.link.held = none →
      (s.line.state = .purge ∨ s.line.state = .proving ∨ s.line.state = .running → s.NoSweep →
        ∃ t, exec (.pause tag []) s = .next t ∧ t.flow = s.flow ∧
          t.fixed = { s.fixed with held := some ⟨tag, 0x23, ⟨.ok, []⟩, false⟩ } ∧
          t.line = { s.line with
            state := if s.notAtRest = noSections then .paused else .pausing
            returnState := some s.line.state, stopReason := some .host, pendingPause := s.notAtRest }) ∧
      (s.line.state = .pausing ∨ s.line.state = .paused → exec (.pause tag []) s = .next (s.answered tag 0x23 .ok [])) ∧
      (s.motion = false ∨ s.line.state = .runout → s.line.state ≠ .pausing → s.line.state ≠ .paused →
        exec (.pause tag []) s = .next (s.answered tag 0x23 .wrongState [])) ∧
      (∀ r, s.line.state = .paused → s.line.key = .run → s.line.returnState = some r →
        ∃ u, exec (.resume tag []) s = .next (holdReply tag 0x24 ⟨.ok, []⟩ false (react u)) ∧
          u.line = { s.line with state := r, returnState := none } ∧ u.flow = s.flow ∧ u.fixed = s.fixed ∧
          ∀ n : StationId, ((s.station n).state = .empty → (u.station n).state = .refilling ∧ (u.station n).seq = .waiting 1) ∧
            ((s.station n).state ≠ .empty → u.station n = s.station n)) ∧
      (s.line.state ≠ .paused ∨ s.line.key = .setup → exec (.resume tag []) s = .next (s.answered tag 0x24 .wrongState [])))

/-- R166, R167, R61, R21: StopLine and EndJob take PURGE, PROVING and RUNNING, and PAUSING and PAUSED with the key in RUN, to RUNOUT with
target JOB_IDLE and SWEEP: the return state is absent, active proving is abandoned, and from PAUSING and PAUSED every EMPTY station begins
a refill sequence (log entry 14). In RUNOUT StopLine keeps the target and EndJob makes it SWEEP; every block then tests its conditions (`react`). In other
states but JOB_IDLE for EndJob each is refused. -/
def Obligations.StopLineAndEndJobRunOut : Prop :=
  ∀ (tag : Byte) (s : State), s.link.held = none →
    (s.line.state = .purge ∨ s.line.state = .proving ∨ s.line.state = .running ∨
        ((s.line.state = .pausing ∨ s.line.state = .paused) ∧ s.line.key = .run) →
      ∀ c type target, (c, type, target) ∈ [(Instr.stopLine tag [], 0x25, RunoutTarget.jobIdle), (.endJob tag [], 0x26, .sweep)] →
      ∃ u, exec c s = .next (holdReply tag type ⟨.ok, []⟩ false (react u)) ∧
        u.line = { s.line with state := .runout, returnState := none, pendingPause := noSections, runoutTarget := target } ∧
        u.mon = { s.mon with proving := if s.mon.proving = .active then .abandoned else s.mon.proving } ∧ u.fixed = s.fixed ∧
        u.reg.queue = s.reg.queue ∧ u.reg.window = s.reg.window ∧ u.reg.diverts = s.reg.diverts ∧
        u.track.carriers = s.track.carriers ∧ u.sets.accumulator = s.sets.accumulator ∧
        (∀ i, s.coll.state = .hunt → s.coll.current = some i → u.coll.state = .setStart ∧ u.coll.current = none) ∧
        (s.coll.state ≠ .hunt → u.coll = s.coll ∧ u.reg = s.reg ∧ u.sets = s.sets) ∧
        ∀ n : StationId, (u.station n).state = if (s.line.state = .pausing ∨ s.line.state = .paused) ∧ (s.station n).state = .empty
          then .refilling else (s.station n).state) ∧
    (s.line.state = .runout → exec (.stopLine tag []) s = .next (s.answered tag 0x25 .ok []) ∧
      exec (.endJob tag []) s = .next (holdReply tag 0x26 ⟨.ok, []⟩ false (react { s with line.runoutTarget := .sweep }))) ∧
    (s.line.state ∈ [LineState.standby, .ready, .sweep, .faultStop, .interlock] ∨
        ((s.line.state = .pausing ∨ s.line.state = .paused) ∧ s.line.key = .setup) →
      exec (.stopLine tag []) s = .next (s.answered tag 0x25 .wrongState []) ∧
      exec (.endJob tag []) s = .next (s.answered tag 0x26 .wrongState [])) ∧
    (s.line.state = .jobIdle → exec (.stopLine tag []) s = .next (s.answered tag 0x25 .wrongState []))

/-- R167, R138, R169: EndJob in JOB_IDLE sweeps the OPEN bins from B1 to B10 and BR. With a manifest entry free for each the trays are closed
(`closeBin`, cause SWEEP), JOB_ENDED with cause END gives the counters, the entries left in the divert list and the trays closed in the job
(log entry 19), the job is discarded and the line stands in READY. With fewer, the sweep closes trays while there is room and waits in SWEEP
at the first bin that it cannot close. The low-water flag and the next divert number are kept (log entry 16). -/
def Obligations.EndJobSweeps : Prop :=
  ∀ (tag : Byte) (s : State), s.link.held = none → s.line.state = .jobIdle →
    (s.postage.manifest.length + s.openBins.length ≤ 64 →
      ∃ v w t, exec (.endJob tag []) s = .next t ∧
        v = { s with
          line.state := .sweep, presort.sweepPosition := some 0
          link := (queueReport (.stateChange .sweep .jobIdle .host) s).link } ∧
        w = s.openBins.foldl (fun x b => closeBin b .sweep x) v ∧
        t.link = { (queueReports
            [.jobEnded1 s.jobCode .ended s.reg.diverts.length
                (w.postage.direct.trays + w.postage.area.trays + w.postage.mixed.trays) s.reg.counters.started s.reg.counters.good,
              .jobEnded2 s.jobCode s.reg.counters.faulted s.reg.counters.delivered s.reg.counters.divertedMatched,
              .jobEnded3 s.jobCode s.reg.counters.divertedStray s.reg.counters.missing s.reg.counters.voided,
              .stateChange .ready .sweep .sweepDone] w).link with
          held := some ⟨tag, 0x26, ⟨.ok, []⟩, false⟩ } ∧
        t.postage = w.postage ∧ t.presort.bins = w.presort.bins ∧ t.line.state = .ready ∧ t.openBins = [] ∧
        t.fixed = { s.fixed with held := some ⟨tag, 0x26, ⟨.ok, []⟩, false⟩ } ∧
        t.postage.manifest.length = s.postage.manifest.length + s.openBins.length ∧
        t.reg = { Register.reset with nextDivert := s.reg.nextDivert, filter := s.reg.filter, lowArmed := s.reg.lowArmed } ∧
        t.coll = .reset ∧ t.sets = { SetHandler.reset with
          earlyCount := s.sets.earlyCount, plate1 := s.sets.plate1, plate2 := s.sets.plate2 } ∧
        t.presort.nextTray = none ∧ t.mon = s.mon ∧ t.track.stations = s.track.stations ∧
        t.line = { state := .ready, returnState := none, origin := none, stopReason := none, runoutTarget := .none
                   pendingPause := noSections, purgeHeldDone := false, key := s.line.key, interlock := s.line.interlock }) ∧
    -- with fewer free entries than OPEN bins the first of them are closed, and the sweep waits at the next
    (∀ (older newer : List BinId) (b : BinId), s.openBins = older ++ b :: newer → s.postage.manifest.length + older.length = 64 →
      ∃ v w t, exec (.endJob tag []) s = .next t ∧
        v = { s with
          line.state := .sweep, presort.sweepPosition := some 0
          link := (queueReport (.stateChange .sweep .jobIdle .host) s).link } ∧
        w = older.foldl (fun x b => closeBin b .sweep x) v ∧
        t = { w with
          presort.sweepPosition := some b.val
          link.held := some ⟨tag, 0x26, ⟨.ok, []⟩, false⟩
          track := { w.track with zones := t.track.zones }, coll.feedHold := t.coll.feedHold } ∧
        t.postage.manifest.length = 64 ∧ t.openBins = b :: newer ∧ t.reg = s.reg) ∧
    (s.postage.manifest.length = 64 → s.openBins ≠ [] →
      ∃ t, exec (.endJob tag []) s = .next t ∧ t.line.state = .sweep ∧ t.postage = s.postage ∧ t.openBins = s.openBins ∧
        t.reg = s.reg ∧ t.presort.sweepPosition ≠ none)

/-- R170, R139, R140, R152, R153, R169: AbortJob in JOB_IDLE, PAUSED and FAULT_STOP, with a manifest entry free for every OPEN bin. The
sets in flight are diverted in path order, each with ABORTED and point IN_PLACE: its piece is withdrawn from its tray or manifest entry,
its divert entry and PIECE_DIVERTED are queued, and proving counts it (`State.DivertsInPlace`). The OPEN bins close with cause ABORT, JOB_ENDED
gives the counters as they then stand, the job is discarded and the line stands in READY; the reply counts the sets and the trays. With too few
entries it is refused with NO_SPACE, in other states with WRONG_STATE, both counts absent (log entry 12), and a refusal changes nothing else.
(A tray whose last piece is withdrawn is not closed; the fields of the withdrawal's reports: log entry 34. The next divert number and
the low-water flag outlast the discard: log entry 16.) -/
def Obligations.AbortJobDiscards : Prop :=
  ∀ (tag : Byte) (s : State), s.link.held = none →
    (s.line.state.takesAbort = true → s.openBins.length ≤ 64 - s.postage.manifest.length →
      ∃ (path : List Slot) (u w t : State), exec (.abortJob tag []) s = .next t ∧
        path = s.track.transport.toList ++ ([11, 10, 9, 8, 7, 6, 5, 4, 3, 2, 1, 0] : List Position).filterMap s.carrier ++
          s.sets.buffer.toList ++ s.sets.folderSet.toList ++ s.sets.accumulator.toList ++
          (match s.sets.gate with
            | .passing i | .closed (some i) => if s.sets.accumulator = some i then [] else [i]
            | .closed none => []) ∧
        State.DivertsAll s path u ∧
        w = ([0, 1, 2, 3, 4, 5, 6, 7, 8, 9, 10] : List BinId).foldl (fun x b => closeBin b .abort x) u ∧
        t.link = { (queueReports
            [.jobEnded1 s.jobCode .abort w.reg.diverts.length
                (w.postage.direct.trays + w.postage.area.trays + w.postage.mixed.trays) w.reg.counters.started w.reg.counters.good,
              .jobEnded2 s.jobCode w.reg.counters.faulted w.reg.counters.delivered w.reg.counters.divertedMatched,
              .jobEnded3 s.jobCode w.reg.counters.divertedStray w.reg.counters.missing w.reg.counters.voided,
              .stateChange .ready s.line.state .abort] w).link with
          held := some ⟨tag, 0x27, ⟨.ok, toBytes 1 path.length ++ toBytes 1 u.openBins.length⟩, false⟩ } ∧
        t.fixed = { s.fixed with
          held := some ⟨tag, 0x27, ⟨.ok, toBytes 1 path.length ++ toBytes 1 u.openBins.length⟩, false⟩ } ∧
        u.openBins.length ≤ s.openBins.length ∧ t.postage = w.postage ∧ t.presort.bins = w.presort.bins ∧ t.mon = w.mon ∧
        t.postage.manifest.length = s.postage.manifest.length + u.openBins.length ∧ t.openBins = [] ∧ t.line.state = .ready ∧
        t.line.returnState = none ∧ t.line.stopReason = none ∧ t.line.runoutTarget = .none ∧
        t.reg = { Register.reset with nextDivert := w.reg.nextDivert, filter := s.reg.filter, lowArmed := s.reg.lowArmed } ∧
        t.coll = .reset ∧ t.sets.accumulator = none ∧ t.sets.folderSet = none ∧ t.sets.buffer = none ∧
        (∀ p : Position, t.carrier p = none) ∧ t.track.transport = none ∧ t.presort.nextTray = none ∧
        t.track.stations = s.track.stations) ∧
    (s.line.state.takesAbort = true → 64 - s.postage.manifest.length < s.openBins.length →
      exec (.abortJob tag []) s = .next (s.answered tag 0x27 .noSpace [0xFF, 0xFF])) ∧
    (s.line.state.takesAbort = false → exec (.abortJob tag []) s = .next (s.answered tag 0x27 .wrongState [0xFF, 0xFF]))

/-- R172, R121: Recover in FAULT_STOP with no zone JAMMED takes the piece in the transport as delivered, marked UNCONFIRMED, and the line to
PAUSED, the return state and the stop reason kept. Otherwise it is refused with WRONG_STATE and nothing else changes. -/
def Obligations.RecoverPauses : Prop :=
  ∀ (tag : Byte) (s : State), s.link.held = none →
    (s.line.state = .faultStop → (∀ z : Fin 4, s.track.zones[z].jammed = none) →
      (s.track.transport = none → ∃ t, exec (.recover tag []) s = .next t ∧ t.flow = s.flow ∧
        t.line = { s.line with state := .paused } ∧ t.reg = s.reg ∧ t.presort = s.presort ∧
        t.link = { (queueReport (.stateChange .paused .faultStop .recover) s).link with held := some ⟨tag, 0x28, ⟨.ok, []⟩, false⟩ }) ∧
      (∀ i r b p rec, s.track.transport = some i → s.setAt i = some r → r.bin = some b → r.piece = some p → r.record = some rec →
        ∃ t window, exec (.recover tag []) s = .next t ∧ t.line = { s.line with state := .paused } ∧
          window = windowSet s.reg.window p .delivered ∧
          t.flow = { s.flow.put i none with
            transport := none
            register := { s.flow.register with
              counters := { s.reg.counters with delivered := min (s.reg.counters.delivered + 1) 4294967295 }
              base := (advanceBase s.reg.base window).1, window := (advanceBase s.reg.base window).2 } } ∧
          (t.bin b).onWay = (s.bin b).onWay - 1 ∧ (∀ a, a ≠ b → t.bin a = s.bin a) ∧ t.mon = s.mon ∧
          t.link = { (queueReport (.stateChange .paused .faultStop .recover) (queueReport
            (.pieceDelivered (some p) r.tray (some b) r.postageWeight r.step r.marginal (hasKind r.faults .disturbed) true) s)).link with
            held := some ⟨tag, 0x28, ⟨.ok, []⟩, false⟩ })) ∧
    (s.line.state ≠ .faultStop ∨ (∃ z : Fin 4, s.track.zones[z].jammed ≠ none) →
      exec (.recover tag []) s = .next (s.answered tag 0x28 .wrongState []))

/-- R109, R56, R110: StationControl Enable from OFF, TRIPPED or EMPTY clears the monitor and makes the station REFILLING with a new
sequence, an attempt outstanding kept as its first; from other states it is refused. Disable makes a station OFF, a DROPPING one when its
drop ends (the actions' codes: log entry 12). Every block then tests its conditions (`react`). In STANDBY and INTERLOCK both are refused. A
station outside S1 to S6 or an action outside the two is refused with BAD_VALUE, but in STANDBY and INTERLOCK with WRONG_STATE (log entry 29);
a station that is none has no state to return, and the byte is absent (log entry 12). -/
def Obligations.StationsEnabledAndDisabled : Prop :=
  ∀ (tag : Byte) (n : StationId) (s : State), s.link.held = none →
    (s.line.state ≠ .standby → s.line.state ≠ .interlock →
      ((s.station n).state = .off ∨ (s.station n).state = .tripped ∨ (s.station n).state = .empty →
        ∃ u, exec (.stationControlEnable tag [BitVec.ofNat 8 (n.val + 1), 0x00]) s =
            .next (holdReply tag 0x30 ⟨.ok, [0x01]⟩ false (react u)) ∧
          (u.station n).state = .refilling ∧
          (u.station n).seq = (match (s.station n).seq with | .running _ x => .running 1 x | _ => .waiting 1) ∧
          (∀ k : StationId, k ≠ n → u.station k = s.station k) ∧
          u.mon = { s.mon with stations := s.mon.stations.set n.val ⟨0, 0⟩ n.isLt } ∧
          u.link = (queueReport (.stationChange n (s.station n).state .refilling .host) s).link ∧
          { u with track := s.track, mon := s.mon, link := s.link } = s) ∧
      ((s.station n).state = .refilling ∨ (s.station n).state = .ready ∨ (s.station n).state = .dropping →
        exec (.stationControlEnable tag [BitVec.ofNat 8 (n.val + 1), 0x00]) s =
          .next (s.answered tag 0x30 .wrongState (toBytes 1 (stationStateCode (s.station n).state)))) ∧
      ((s.station n).state = .dropping →
        ∃ u, exec (.stationControlDisable tag [BitVec.ofNat 8 (n.val + 1), 0x01]) s =
            .next (holdReply tag 0x30 ⟨.ok, [0x03]⟩ false (react u)) ∧
          u = { s with track.stations := s.track.stations.set n.val { s.station n with pendingDisable := true } n.isLt }) ∧
      ((s.station n).state ≠ .dropping →
        ∃ u, exec (.stationControlDisable tag [BitVec.ofNat 8 (n.val + 1), 0x01]) s =
            .next (holdReply tag 0x30 ⟨.ok, [0x00]⟩ false (react u)) ∧
          (u.station n).state = .off ∧ (u.station n).seq = .none ∧ (∀ k : StationId, k ≠ n → u.station k = s.station k) ∧
          u.link = (if (s.station n).state = .off then s.link
            else (queueReport (.stationChange n (s.station n).state .off .host) s).link) ∧
          { u with track := s.track, link := s.link } = s)) ∧
    (s.line.state = .standby ∨ s.line.state = .interlock →
      exec (.stationControlEnable tag [BitVec.ofNat 8 (n.val + 1), 0x00]) s =
          .next (s.answered tag 0x30 .wrongState (toBytes 1 (stationStateCode (s.station n).state))) ∧
      exec (.stationControlDisable tag [BitVec.ofNat 8 (n.val + 1), 0x01]) s =
          .next (s.answered tag 0x30 .wrongState (toBytes 1 (stationStateCode (s.station n).state)))) ∧
    (∀ (code act : Byte) (refusal : Result),
      refusal = (if s.line.state = .standby ∨ s.line.state = .interlock then .wrongState else .badValue) →
      ∀ c, c = .stationControlEnable tag [code, act] ∨ c = .stationControlDisable tag [code, act] →
        (code.toNat = 0 ∨ 6 < code.toNat → exec c s = .next (s.answered tag 0x30 refusal [0xFF])) ∧
        (code = BitVec.ofNat 8 (n.val + 1) → 1 < act.toNat →
          exec c s = .next (s.answered tag 0x30 refusal (toBytes 1 (stationStateCode (s.station n).state)))))

/-- R163, R173, R174: a turn of the key is recorded, and one to SETUP pauses PURGE, PROVING and RUNNING. The guard's opening with a job open
takes the line to INTERLOCK with its origin, and cuts off everything outstanding, from a motion state or PAUSING the sheet in transit among it
(`State.CutsOff`; from the other states: log entry 15; the order of several STATION_CHANGE reports: log entry 27); its closing takes it to
FAULT_STOP with stop reason INTERLOCK, or back to an origin of JOB_IDLE, SWEEP or FAULT_STOP (log entry 15). An opening in INTERLOCK is only recorded (log entry 27). -/
def Obligations.KeyAndGuardStopLine : Prop :=
  (∀ s : State,
      (s.line.state = .purge ∨ s.line.state = .proving ∨ s.line.state = .running → s.NoSweep →
        ∃ t, exec (.keyswitch .setup) s = .next t ∧ t.flow = s.flow ∧ t.fixed = { s.fixed with key := .setup } ∧
          t.line = { s.line with
            key := .setup, state := if s.notAtRest = noSections then .paused else .pausing
            returnState := some s.line.state, stopReason := some .key, pendingPause := s.notAtRest }) ∧
      (s.line.state = .pausing → ∃ t, exec (.keyswitch .setup) s = .next t ∧ t.fixed = { s.fixed with key := .setup } ∧
        t.line.stopReason = s.line.stopReason ∧ (s.notAtRest ≠ noSections → t.line.state = .pausing)) ∧
      (s.line.state.atRest = true → ∀ position, ∃ t, exec (.keyswitch position) s = .next t ∧
        t.line = { s.line with key := position } ∧ t.link = s.link ∧ t.reg = s.reg ∧ t.sets = s.sets) ∧
      exec (.keyswitch .run) s = .next (react { s with line.key := .run })) ∧
  (∀ s : State,
      (s.jobOpen = true → s.line.state ≠ .interlock →
        ∃ t, exec .interlockOpen s = .next t ∧ t.flow = s.flow ∧ t.fixed = { s.fixed with interlock := .opened } ∧
          t.line = { s.line with
            state := .interlock, origin := some s.line.state, interlock := .opened, pendingPause := noSections
            returnState := if s.motion then some s.line.state else s.line.returnState } ∧
          (s.motion = true ∨ s.line.state = .pausing →
            t.feeding = false ∧ t.releasing = false ∧ t.folderAtRest = true ∧ t.track.busy = false) ∧
          -- R22, R95, R121
          ∃ u, t = react u ∧ u.line = t.line ∧ s.CutsOff (s.motion || s.line.state == .pausing)
            [.stateChange .interlock s.line.state .interlockOpen] u) ∧
      (s.jobOpen = false ∨ s.line.state = .interlock → s.line.state.atRest = true →
        ∃ t, exec .interlockOpen s = .next t ∧ t.line = { s.line with interlock := .opened } ∧ t.link = s.link ∧ t.reg = s.reg) ∧
      (s.line.state = .interlock →
        (s.line.origin ≠ some .sweep → ∃ t, exec .interlockClosed s = .next t ∧ t.flow = s.flow ∧
          t.fixed = { s.fixed with interlock := .closed } ∧
          t.line = { s.line with
            interlock := .closed, origin := none
            state := if s.line.origin = some .jobIdle then .jobIdle else .faultStop
            stopReason := if s.line.origin = some .jobIdle ∨ s.line.origin = some .faultStop then s.line.stopReason
              else some .interlock }) ∧
        (s.line.origin = some .sweep → ∃ u, exec .interlockClosed s = .next (react u) ∧ u.line = { s.line with
          interlock := .closed, origin := none, state := .sweep })) ∧
      (s.line.state ≠ .interlock → exec .interlockClosed s = .next (react { s with line.interlock := .closed })))
end

