-- ==== Sys2Proof/Laws/State.lean ====
section
/-! SUPPORT. One lemma for each block under each named update: the blocks that the update leaves as they were. -/

namespace Sys2Proof.Machine

variable (s : State)

/-! `queueReport` changes the block `link` alone. -/
@[simp] theorem queueReport_plant (r : Report) : (queueReport r s).plant = s.plant := rfl
@[simp] theorem queueReport_postal (r : Report) : (queueReport r s).postal = s.postal := rfl
@[simp] theorem queueReport_reg (r : Report) : (queueReport r s).reg = s.reg := rfl
@[simp] theorem queueReport_coll (r : Report) : (queueReport r s).coll = s.coll := rfl
@[simp] theorem queueReport_mon (r : Report) : (queueReport r s).mon = s.mon := rfl
@[simp] theorem queueReport_sets (r : Report) : (queueReport r s).sets = s.sets := rfl
@[simp] theorem queueReport_track (r : Report) : (queueReport r s).track = s.track := rfl
@[simp] theorem queueReport_presort (r : Report) : (queueReport r s).presort = s.presort := rfl
@[simp] theorem queueReport_postage (r : Report) : (queueReport r s).postage = s.postage := rfl
@[simp] theorem queueReport_line (r : Report) : (queueReport r s).line = s.line := rfl
@[simp] theorem queueReport_ports (r : Report) : (queueReport r s).ports = s.ports := rfl
@[simp] theorem queueReport_time (r : Report) : (queueReport r s).time = s.time := rfl
@[simp] theorem queueReport_pending (r : Report) : (queueReport r s).pending = s.pending := rfl

/-! `putSet` changes the block `reg` alone. -/
@[simp] theorem putSet_plant (i : Slot) (r : Option SetRecord) : (s.putSet i r).plant = s.plant := rfl
@[simp] theorem putSet_postal (i : Slot) (r : Option SetRecord) : (s.putSet i r).postal = s.postal := rfl
@[simp] theorem putSet_coll (i : Slot) (r : Option SetRecord) : (s.putSet i r).coll = s.coll := rfl
@[simp] theorem putSet_mon (i : Slot) (r : Option SetRecord) : (s.putSet i r).mon = s.mon := rfl
@[simp] theorem putSet_sets (i : Slot) (r : Option SetRecord) : (s.putSet i r).sets = s.sets := rfl
@[simp] theorem putSet_track (i : Slot) (r : Option SetRecord) : (s.putSet i r).track = s.track := rfl
@[simp] theorem putSet_presort (i : Slot) (r : Option SetRecord) : (s.putSet i r).presort = s.presort := rfl
@[simp] theorem putSet_postage (i : Slot) (r : Option SetRecord) : (s.putSet i r).postage = s.postage := rfl
@[simp] theorem putSet_line (i : Slot) (r : Option SetRecord) : (s.putSet i r).line = s.line := rfl
@[simp] theorem putSet_link (i : Slot) (r : Option SetRecord) : (s.putSet i r).link = s.link := rfl
@[simp] theorem putSet_ports (i : Slot) (r : Option SetRecord) : (s.putSet i r).ports = s.ports := rfl
@[simp] theorem putSet_time (i : Slot) (r : Option SetRecord) : (s.putSet i r).time = s.time := rfl
@[simp] theorem putSet_pending (i : Slot) (r : Option SetRecord) : (s.putSet i r).pending = s.pending := rfl

/-! `modSet` changes the block `reg` alone. -/
@[simp] theorem modSet_plant (i : Slot) (f : SetRecord → SetRecord) : (s.modSet i f).plant = s.plant := rfl
@[simp] theorem modSet_postal (i : Slot) (f : SetRecord → SetRecord) : (s.modSet i f).postal = s.postal := rfl
@[simp] theorem modSet_coll (i : Slot) (f : SetRecord → SetRecord) : (s.modSet i f).coll = s.coll := rfl
@[simp] theorem modSet_mon (i : Slot) (f : SetRecord → SetRecord) : (s.modSet i f).mon = s.mon := rfl
@[simp] theorem modSet_sets (i : Slot) (f : SetRecord → SetRecord) : (s.modSet i f).sets = s.sets := rfl
@[simp] theorem modSet_track (i : Slot) (f : SetRecord → SetRecord) : (s.modSet i f).track = s.track := rfl
@[simp] theorem modSet_presort (i : Slot) (f : SetRecord → SetRecord) : (s.modSet i f).presort = s.presort := rfl
@[simp] theorem modSet_postage (i : Slot) (f : SetRecord → SetRecord) : (s.modSet i f).postage = s.postage := rfl
@[simp] theorem modSet_line (i : Slot) (f : SetRecord → SetRecord) : (s.modSet i f).line = s.line := rfl
@[simp] theorem modSet_link (i : Slot) (f : SetRecord → SetRecord) : (s.modSet i f).link = s.link := rfl
@[simp] theorem modSet_ports (i : Slot) (f : SetRecord → SetRecord) : (s.modSet i f).ports = s.ports := rfl
@[simp] theorem modSet_time (i : Slot) (f : SetRecord → SetRecord) : (s.modSet i f).time = s.time := rfl
@[simp] theorem modSet_pending (i : Slot) (f : SetRecord → SetRecord) : (s.modSet i f).pending = s.pending := rfl

/-! `addFault` changes the block `reg` alone. -/
@[simp] theorem addFault_plant (k : FaultKind) (i : Slot) : (addFault k i s).plant = s.plant := rfl
@[simp] theorem addFault_postal (k : FaultKind) (i : Slot) : (addFault k i s).postal = s.postal := rfl
@[simp] theorem addFault_coll (k : FaultKind) (i : Slot) : (addFault k i s).coll = s.coll := rfl
@[simp] theorem addFault_mon (k : FaultKind) (i : Slot) : (addFault k i s).mon = s.mon := rfl
@[simp] theorem addFault_sets (k : FaultKind) (i : Slot) : (addFault k i s).sets = s.sets := rfl
@[simp] theorem addFault_track (k : FaultKind) (i : Slot) : (addFault k i s).track = s.track := rfl
@[simp] theorem addFault_presort (k : FaultKind) (i : Slot) : (addFault k i s).presort = s.presort := rfl
@[simp] theorem addFault_postage (k : FaultKind) (i : Slot) : (addFault k i s).postage = s.postage := rfl
@[simp] theorem addFault_line (k : FaultKind) (i : Slot) : (addFault k i s).line = s.line := rfl
@[simp] theorem addFault_link (k : FaultKind) (i : Slot) : (addFault k i s).link = s.link := rfl
@[simp] theorem addFault_ports (k : FaultKind) (i : Slot) : (addFault k i s).ports = s.ports := rfl
@[simp] theorem addFault_time (k : FaultKind) (i : Slot) : (addFault k i s).time = s.time := rfl
@[simp] theorem addFault_pending (k : FaultKind) (i : Slot) : (addFault k i s).pending = s.pending := rfl

/-! `putStation` changes the block `track` alone. -/
@[simp] theorem putStation_plant (n : StationId) (x : Station) : (putStation n x s).plant = s.plant := rfl
@[simp] theorem putStation_postal (n : StationId) (x : Station) : (putStation n x s).postal = s.postal := rfl
@[simp] theorem putStation_reg (n : StationId) (x : Station) : (putStation n x s).reg = s.reg := rfl
@[simp] theorem putStation_coll (n : StationId) (x : Station) : (putStation n x s).coll = s.coll := rfl
@[simp] theorem putStation_mon (n : StationId) (x : Station) : (putStation n x s).mon = s.mon := rfl
@[simp] theorem putStation_sets (n : StationId) (x : Station) : (putStation n x s).sets = s.sets := rfl
@[simp] theorem putStation_presort (n : StationId) (x : Station) : (putStation n x s).presort = s.presort := rfl
@[simp] theorem putStation_postage (n : StationId) (x : Station) : (putStation n x s).postage = s.postage := rfl
@[simp] theorem putStation_line (n : StationId) (x : Station) : (putStation n x s).line = s.line := rfl
@[simp] theorem putStation_link (n : StationId) (x : Station) : (putStation n x s).link = s.link := rfl
@[simp] theorem putStation_ports (n : StationId) (x : Station) : (putStation n x s).ports = s.ports := rfl
@[simp] theorem putStation_time (n : StationId) (x : Station) : (putStation n x s).time = s.time := rfl
@[simp] theorem putStation_pending (n : StationId) (x : Station) : (putStation n x s).pending = s.pending := rfl

/-! `putBin` changes the block `presort` alone. -/
@[simp] theorem putBin_plant (b : BinId) (x : Bin) : (putBin b x s).plant = s.plant := rfl
@[simp] theorem putBin_postal (b : BinId) (x : Bin) : (putBin b x s).postal = s.postal := rfl
@[simp] theorem putBin_reg (b : BinId) (x : Bin) : (putBin b x s).reg = s.reg := rfl
@[simp] theorem putBin_coll (b : BinId) (x : Bin) : (putBin b x s).coll = s.coll := rfl
@[simp] theorem putBin_mon (b : BinId) (x : Bin) : (putBin b x s).mon = s.mon := rfl
@[simp] theorem putBin_sets (b : BinId) (x : Bin) : (putBin b x s).sets = s.sets := rfl
@[simp] theorem putBin_track (b : BinId) (x : Bin) : (putBin b x s).track = s.track := rfl
@[simp] theorem putBin_postage (b : BinId) (x : Bin) : (putBin b x s).postage = s.postage := rfl
@[simp] theorem putBin_line (b : BinId) (x : Bin) : (putBin b x s).line = s.line := rfl
@[simp] theorem putBin_link (b : BinId) (x : Bin) : (putBin b x s).link = s.link := rfl
@[simp] theorem putBin_ports (b : BinId) (x : Bin) : (putBin b x s).ports = s.ports := rfl
@[simp] theorem putBin_time (b : BinId) (x : Bin) : (putBin b x s).time = s.time := rfl
@[simp] theorem putBin_pending (b : BinId) (x : Bin) : (putBin b x s).pending = s.pending := rfl

/-! `putZone` changes the block `track` alone. -/
@[simp] theorem putZone_plant (z : Fin 4) (x : JamZone) : (putZone z x s).plant = s.plant := rfl
@[simp] theorem putZone_postal (z : Fin 4) (x : JamZone) : (putZone z x s).postal = s.postal := rfl
@[simp] theorem putZone_reg (z : Fin 4) (x : JamZone) : (putZone z x s).reg = s.reg := rfl
@[simp] theorem putZone_coll (z : Fin 4) (x : JamZone) : (putZone z x s).coll = s.coll := rfl
@[simp] theorem putZone_mon (z : Fin 4) (x : JamZone) : (putZone z x s).mon = s.mon := rfl
@[simp] theorem putZone_sets (z : Fin 4) (x : JamZone) : (putZone z x s).sets = s.sets := rfl
@[simp] theorem putZone_presort (z : Fin 4) (x : JamZone) : (putZone z x s).presort = s.presort := rfl
@[simp] theorem putZone_postage (z : Fin 4) (x : JamZone) : (putZone z x s).postage = s.postage := rfl
@[simp] theorem putZone_line (z : Fin 4) (x : JamZone) : (putZone z x s).line = s.line := rfl
@[simp] theorem putZone_link (z : Fin 4) (x : JamZone) : (putZone z x s).link = s.link := rfl
@[simp] theorem putZone_ports (z : Fin 4) (x : JamZone) : (putZone z x s).ports = s.ports := rfl
@[simp] theorem putZone_time (z : Fin 4) (x : JamZone) : (putZone z x s).time = s.time := rfl
@[simp] theorem putZone_pending (z : Fin 4) (x : JamZone) : (putZone z x s).pending = s.pending := rfl

/-! `setPiece` changes the block `reg` alone. -/
@[simp] theorem setPiece_plant (p : Nat) (x : PieceState) : (setPiece p x s).plant = s.plant := rfl
@[simp] theorem setPiece_postal (p : Nat) (x : PieceState) : (setPiece p x s).postal = s.postal := rfl
@[simp] theorem setPiece_coll (p : Nat) (x : PieceState) : (setPiece p x s).coll = s.coll := rfl
@[simp] theorem setPiece_mon (p : Nat) (x : PieceState) : (setPiece p x s).mon = s.mon := rfl
@[simp] theorem setPiece_sets (p : Nat) (x : PieceState) : (setPiece p x s).sets = s.sets := rfl
@[simp] theorem setPiece_track (p : Nat) (x : PieceState) : (setPiece p x s).track = s.track := rfl
@[simp] theorem setPiece_presort (p : Nat) (x : PieceState) : (setPiece p x s).presort = s.presort := rfl
@[simp] theorem setPiece_postage (p : Nat) (x : PieceState) : (setPiece p x s).postage = s.postage := rfl
@[simp] theorem setPiece_line (p : Nat) (x : PieceState) : (setPiece p x s).line = s.line := rfl
@[simp] theorem setPiece_link (p : Nat) (x : PieceState) : (setPiece p x s).link = s.link := rfl
@[simp] theorem setPiece_ports (p : Nat) (x : PieceState) : (setPiece p x s).ports = s.ports := rfl
@[simp] theorem setPiece_time (p : Nat) (x : PieceState) : (setPiece p x s).time = s.time := rfl
@[simp] theorem setPiece_pending (p : Nat) (x : PieceState) : (setPiece p x s).pending = s.pending := rfl

/-! `advanceWindow` changes the block `reg` alone. -/
@[simp] theorem advanceWindow_plant : (advanceWindow s).plant = s.plant := rfl
@[simp] theorem advanceWindow_postal : (advanceWindow s).postal = s.postal := rfl
@[simp] theorem advanceWindow_coll : (advanceWindow s).coll = s.coll := rfl
@[simp] theorem advanceWindow_mon : (advanceWindow s).mon = s.mon := rfl
@[simp] theorem advanceWindow_sets : (advanceWindow s).sets = s.sets := rfl
@[simp] theorem advanceWindow_track : (advanceWindow s).track = s.track := rfl
@[simp] theorem advanceWindow_presort : (advanceWindow s).presort = s.presort := rfl
@[simp] theorem advanceWindow_postage : (advanceWindow s).postage = s.postage := rfl
@[simp] theorem advanceWindow_line : (advanceWindow s).line = s.line := rfl
@[simp] theorem advanceWindow_link : (advanceWindow s).link = s.link := rfl
@[simp] theorem advanceWindow_ports : (advanceWindow s).ports = s.ports := rfl
@[simp] theorem advanceWindow_time : (advanceWindow s).time = s.time := rfl
@[simp] theorem advanceWindow_pending : (advanceWindow s).pending = s.pending := rfl

/-! `holdReply` changes the block `link` alone. -/
@[simp] theorem holdReply_plant (tag type : Byte) (r : Reply) (b : Bool) : (holdReply tag type r b s).plant = s.plant := rfl
@[simp] theorem holdReply_postal (tag type : Byte) (r : Reply) (b : Bool) : (holdReply tag type r b s).postal = s.postal := rfl
@[simp] theorem holdReply_reg (tag type : Byte) (r : Reply) (b : Bool) : (holdReply tag type r b s).reg = s.reg := rfl
@[simp] theorem holdReply_coll (tag type : Byte) (r : Reply) (b : Bool) : (holdReply tag type r b s).coll = s.coll := rfl
@[simp] theorem holdReply_mon (tag type : Byte) (r : Reply) (b : Bool) : (holdReply tag type r b s).mon = s.mon := rfl
@[simp] theorem holdReply_sets (tag type : Byte) (r : Reply) (b : Bool) : (holdReply tag type r b s).sets = s.sets := rfl
@[simp] theorem holdReply_track (tag type : Byte) (r : Reply) (b : Bool) : (holdReply tag type r b s).track = s.track := rfl
@[simp] theorem holdReply_presort (tag type : Byte) (r : Reply) (b : Bool) : (holdReply tag type r b s).presort = s.presort := rfl
@[simp] theorem holdReply_postage (tag type : Byte) (r : Reply) (b : Bool) : (holdReply tag type r b s).postage = s.postage := rfl
@[simp] theorem holdReply_line (tag type : Byte) (r : Reply) (b : Bool) : (holdReply tag type r b s).line = s.line := rfl
@[simp] theorem holdReply_ports (tag type : Byte) (r : Reply) (b : Bool) : (holdReply tag type r b s).ports = s.ports := rfl
@[simp] theorem holdReply_time (tag type : Byte) (r : Reply) (b : Bool) : (holdReply tag type r b s).time = s.time := rfl
@[simp] theorem holdReply_pending (tag type : Byte) (r : Reply) (b : Bool) : (holdReply tag type r b s).pending = s.pending := rfl

/-! `landPiece` changes the block `presort` alone. -/
@[simp] theorem landPiece_plant (b : BinId) : (landPiece b s).plant = s.plant := rfl
@[simp] theorem landPiece_postal (b : BinId) : (landPiece b s).postal = s.postal := rfl
@[simp] theorem landPiece_reg (b : BinId) : (landPiece b s).reg = s.reg := rfl
@[simp] theorem landPiece_coll (b : BinId) : (landPiece b s).coll = s.coll := rfl
@[simp] theorem landPiece_mon (b : BinId) : (landPiece b s).mon = s.mon := rfl
@[simp] theorem landPiece_sets (b : BinId) : (landPiece b s).sets = s.sets := rfl
@[simp] theorem landPiece_track (b : BinId) : (landPiece b s).track = s.track := rfl
@[simp] theorem landPiece_postage (b : BinId) : (landPiece b s).postage = s.postage := rfl
@[simp] theorem landPiece_line (b : BinId) : (landPiece b s).line = s.line := rfl
@[simp] theorem landPiece_link (b : BinId) : (landPiece b s).link = s.link := rfl
@[simp] theorem landPiece_ports (b : BinId) : (landPiece b s).ports = s.ports := rfl
@[simp] theorem landPiece_time (b : BinId) : (landPiece b s).time = s.time := rfl
@[simp] theorem landPiece_pending (b : BinId) : (landPiece b s).pending = s.pending := rfl

/-! `countStarted` changes the block `reg` alone. -/
@[simp] theorem countStarted_plant : (countStarted s).plant = s.plant := rfl
@[simp] theorem countStarted_postal : (countStarted s).postal = s.postal := rfl
@[simp] theorem countStarted_coll : (countStarted s).coll = s.coll := rfl
@[simp] theorem countStarted_mon : (countStarted s).mon = s.mon := rfl
@[simp] theorem countStarted_sets : (countStarted s).sets = s.sets := rfl
@[simp] theorem countStarted_track : (countStarted s).track = s.track := rfl
@[simp] theorem countStarted_presort : (countStarted s).presort = s.presort := rfl
@[simp] theorem countStarted_postage : (countStarted s).postage = s.postage := rfl
@[simp] theorem countStarted_line : (countStarted s).line = s.line := rfl
@[simp] theorem countStarted_link : (countStarted s).link = s.link := rfl
@[simp] theorem countStarted_ports : (countStarted s).ports = s.ports := rfl
@[simp] theorem countStarted_time : (countStarted s).time = s.time := rfl
@[simp] theorem countStarted_pending : (countStarted s).pending = s.pending := rfl

/-! `dropDivert` changes the block `reg` alone. -/
@[simp] theorem dropDivert_plant (p : Nat) : (dropDivert p s).plant = s.plant := rfl
@[simp] theorem dropDivert_postal (p : Nat) : (dropDivert p s).postal = s.postal := rfl
@[simp] theorem dropDivert_coll (p : Nat) : (dropDivert p s).coll = s.coll := rfl
@[simp] theorem dropDivert_mon (p : Nat) : (dropDivert p s).mon = s.mon := rfl
@[simp] theorem dropDivert_sets (p : Nat) : (dropDivert p s).sets = s.sets := rfl
@[simp] theorem dropDivert_track (p : Nat) : (dropDivert p s).track = s.track := rfl
@[simp] theorem dropDivert_presort (p : Nat) : (dropDivert p s).presort = s.presort := rfl
@[simp] theorem dropDivert_postage (p : Nat) : (dropDivert p s).postage = s.postage := rfl
@[simp] theorem dropDivert_line (p : Nat) : (dropDivert p s).line = s.line := rfl
@[simp] theorem dropDivert_link (p : Nat) : (dropDivert p s).link = s.link := rfl
@[simp] theorem dropDivert_ports (p : Nat) : (dropDivert p s).ports = s.ports := rfl
@[simp] theorem dropDivert_time (p : Nat) : (dropDivert p s).time = s.time := rfl
@[simp] theorem dropDivert_pending (p : Nat) : (dropDivert p s).pending = s.pending := rfl

/-! `watchZones` changes the block `track` alone. -/
@[simp] theorem watchZones_plant : (watchZones s).plant = s.plant := rfl
@[simp] theorem watchZones_postal : (watchZones s).postal = s.postal := rfl
@[simp] theorem watchZones_reg : (watchZones s).reg = s.reg := rfl
@[simp] theorem watchZones_coll : (watchZones s).coll = s.coll := rfl
@[simp] theorem watchZones_mon : (watchZones s).mon = s.mon := rfl
@[simp] theorem watchZones_sets : (watchZones s).sets = s.sets := rfl
@[simp] theorem watchZones_presort : (watchZones s).presort = s.presort := rfl
@[simp] theorem watchZones_postage : (watchZones s).postage = s.postage := rfl
@[simp] theorem watchZones_line : (watchZones s).line = s.line := rfl
@[simp] theorem watchZones_link : (watchZones s).link = s.link := rfl
@[simp] theorem watchZones_ports : (watchZones s).ports = s.ports := rfl
@[simp] theorem watchZones_time : (watchZones s).time = s.time := rfl
@[simp] theorem watchZones_pending : (watchZones s).pending = s.pending := rfl

/-! `refreshHold` changes the block `coll` alone. -/
@[simp] theorem refreshHold_plant : (refreshHold s).plant = s.plant := rfl
@[simp] theorem refreshHold_postal : (refreshHold s).postal = s.postal := rfl
@[simp] theorem refreshHold_reg : (refreshHold s).reg = s.reg := rfl
@[simp] theorem refreshHold_mon : (refreshHold s).mon = s.mon := rfl
@[simp] theorem refreshHold_sets : (refreshHold s).sets = s.sets := rfl
@[simp] theorem refreshHold_track : (refreshHold s).track = s.track := rfl
@[simp] theorem refreshHold_presort : (refreshHold s).presort = s.presort := rfl
@[simp] theorem refreshHold_postage : (refreshHold s).postage = s.postage := rfl
@[simp] theorem refreshHold_line : (refreshHold s).line = s.line := rfl
@[simp] theorem refreshHold_link : (refreshHold s).link = s.link := rfl
@[simp] theorem refreshHold_ports : (refreshHold s).ports = s.ports := rfl
@[simp] theorem refreshHold_time : (refreshHold s).time = s.time := rfl
@[simp] theorem refreshHold_pending : (refreshHold s).pending = s.pending := rfl

/-! `storePlant` changes the block `plant` alone. -/
@[simp] theorem storePlant_postal (p : Plant) (c : Bool) : (storePlant p c s).postal = s.postal := rfl
@[simp] theorem storePlant_reg (p : Plant) (c : Bool) : (storePlant p c s).reg = s.reg := rfl
@[simp] theorem storePlant_coll (p : Plant) (c : Bool) : (storePlant p c s).coll = s.coll := rfl
@[simp] theorem storePlant_mon (p : Plant) (c : Bool) : (storePlant p c s).mon = s.mon := rfl
@[simp] theorem storePlant_sets (p : Plant) (c : Bool) : (storePlant p c s).sets = s.sets := rfl
@[simp] theorem storePlant_track (p : Plant) (c : Bool) : (storePlant p c s).track = s.track := rfl
@[simp] theorem storePlant_presort (p : Plant) (c : Bool) : (storePlant p c s).presort = s.presort := rfl
@[simp] theorem storePlant_postage (p : Plant) (c : Bool) : (storePlant p c s).postage = s.postage := rfl
@[simp] theorem storePlant_line (p : Plant) (c : Bool) : (storePlant p c s).line = s.line := rfl
@[simp] theorem storePlant_link (p : Plant) (c : Bool) : (storePlant p c s).link = s.link := rfl
@[simp] theorem storePlant_ports (p : Plant) (c : Bool) : (storePlant p c s).ports = s.ports := rfl
@[simp] theorem storePlant_time (p : Plant) (c : Bool) : (storePlant p c s).time = s.time := rfl
@[simp] theorem storePlant_pending (p : Plant) (c : Bool) : (storePlant p c s).pending = s.pending := rfl

/-! `storePostal` changes the block `postal` alone. -/
@[simp] theorem storePostal_plant (p : Postal) (c : Bool) : (storePostal p c s).plant = s.plant := rfl
@[simp] theorem storePostal_reg (p : Postal) (c : Bool) : (storePostal p c s).reg = s.reg := rfl
@[simp] theorem storePostal_coll (p : Postal) (c : Bool) : (storePostal p c s).coll = s.coll := rfl
@[simp] theorem storePostal_mon (p : Postal) (c : Bool) : (storePostal p c s).mon = s.mon := rfl
@[simp] theorem storePostal_sets (p : Postal) (c : Bool) : (storePostal p c s).sets = s.sets := rfl
@[simp] theorem storePostal_track (p : Postal) (c : Bool) : (storePostal p c s).track = s.track := rfl
@[simp] theorem storePostal_presort (p : Postal) (c : Bool) : (storePostal p c s).presort = s.presort := rfl
@[simp] theorem storePostal_postage (p : Postal) (c : Bool) : (storePostal p c s).postage = s.postage := rfl
@[simp] theorem storePostal_line (p : Postal) (c : Bool) : (storePostal p c s).line = s.line := rfl
@[simp] theorem storePostal_link (p : Postal) (c : Bool) : (storePostal p c s).link = s.link := rfl
@[simp] theorem storePostal_ports (p : Postal) (c : Bool) : (storePostal p c s).ports = s.ports := rfl
@[simp] theorem storePostal_time (p : Postal) (c : Bool) : (storePostal p c s).time = s.time := rfl
@[simp] theorem storePostal_pending (p : Postal) (c : Bool) : (storePostal p c s).pending = s.pending := rfl

/-! Fields inside the changed block. -/
@[simp] theorem putSet_queue (i : Slot) (r : Option SetRecord) : (s.putSet i r).reg.queue = s.reg.queue := rfl
@[simp] theorem putSet_window (i : Slot) (r : Option SetRecord) : (s.putSet i r).reg.window = s.reg.window := rfl
@[simp] theorem putSet_diverts (i : Slot) (r : Option SetRecord) : (s.putSet i r).reg.diverts = s.reg.diverts := rfl
@[simp] theorem putSet_filter (i : Slot) (r : Option SetRecord) : (s.putSet i r).reg.filter = s.reg.filter := rfl
@[simp] theorem putSet_job (i : Slot) (r : Option SetRecord) : (s.putSet i r).reg.job = s.reg.job := rfl
@[simp] theorem putSet_counters (i : Slot) (r : Option SetRecord) : (s.putSet i r).reg.counters = s.reg.counters := rfl
@[simp] theorem setPiece_pool (p : Nat) (x : PieceState) : (setPiece p x s).reg.pool = s.reg.pool := rfl
@[simp] theorem setPiece_queue (p : Nat) (x : PieceState) : (setPiece p x s).reg.queue = s.reg.queue := rfl
@[simp] theorem queueReport_held (r : Report) : (queueReport r s).link.held = s.link.held := rfl
@[simp] theorem queueReport_receive (r : Report) : (queueReport r s).link.receive = s.link.receive := rfl
@[simp] theorem queueReport_rate (r : Report) : (queueReport r s).link.rate = s.link.rate := rfl
@[simp] theorem queueReport_cause (r : Report) : (queueReport r s).link.resetCause = s.link.resetCause := rfl
@[simp] theorem holdReply_reports (tag type : Byte) (r : Reply) (b : Bool) :
    (holdReply tag type r b s).link.reports = s.link.reports := rfl
@[simp] theorem holdReply_held (tag type : Byte) (r : Reply) (b : Bool) :
    (holdReply tag type r b s).link.held = some { tag, type, reply := r, restart := b } := rfl

/-! Reading what an update wrote. -/
@[simp] theorem setAt_putSet_self (i : Slot) (r : Option SetRecord) : (s.putSet i r).setAt i = r := by
  simp [State.setAt, State.putSet]
theorem setAt_putSet_ne (i j : Slot) (r : Option SetRecord) (h : i ≠ j) : (s.putSet i r).setAt j = s.setAt j := by
  have : i.val ≠ j.val := fun e => h (Fin.ext e)
  simp [State.setAt, State.putSet, this]
@[simp] theorem setAt_modSet_self (i : Slot) (f : SetRecord → SetRecord) : (s.modSet i f).setAt i = (s.setAt i).map f := by
  simp [State.modSet]
theorem setAt_modSet_ne (i j : Slot) (f : SetRecord → SetRecord) (h : i ≠ j) : (s.modSet i f).setAt j = s.setAt j := by
  simp [State.modSet, setAt_putSet_ne s i j _ h]
@[simp] theorem station_putStation_self (n : StationId) (x : Station) : (putStation n x s).station n = x := by
  simp [State.station, putStation]
theorem station_putStation_ne (n m : StationId) (x : Station) (h : n ≠ m) : (putStation n x s).station m = s.station m := by
  have : n.val ≠ m.val := fun e => h (Fin.ext e)
  simp [State.station, putStation, this]
@[simp] theorem bin_putBin_self (b : BinId) (x : Bin) : (putBin b x s).bin b = x := by
  simp [State.bin, putBin]
theorem bin_putBin_ne (b c : BinId) (x : Bin) (h : b ≠ c) : (putBin b x s).bin c = s.bin c := by
  have : b.val ≠ c.val := fun e => h (Fin.ext e)
  simp [State.bin, putBin, this]

end Sys2Proof.Machine
end

