-- ==== Sys2Proof/Laws/Frame.lean ====
section
/-! SUPPORT. What the operations that the blocks start of their own accord can do. `Settles s t` says that `t` follows from
`s` by the elementary changes such operations are made of; what those leave alone, `settle` and `react` leave alone. -/

namespace Sys2Proof.Machine

-- One proof after another: side by side they take more threads than the check's memory limit leaves room for.
set_option Elab.async false

/-- A change that leaves the register, the link, the fixed part, the flow, the ENVELOPE monitor and the folder's stops, that
leads to no sweep, and that leaves the bins and the manifest while no set stands at P11. -/
structure SameRecords (s t : State) : Prop where
  reg : t.reg = s.reg := by rfl
  link : t.link = s.link := by rfl
  fixed : t.fixed = s.fixed := by rfl
  flow : t.flow = s.flow := by rfl
  envelope : t.mon.envelope = s.mon.envelope := by rfl
  plates : t.plateStops = s.plateStops := by rfl
  sweep : s.NoSweep → t.NoSweep := by exact id
  trays : s.NoSweep → s.carrier 11 = none → t.presort = s.presort ∧ t.postage = s.postage := by
    exact fun _ _ => ⟨rfl, rfl⟩

/-- A change of a set record that leaves its outline, and removes no fault. -/
def Grows (f : SetRecord → SetRecord) : Prop :=
  ∀ r, (f r).outline = r.outline ∧ r.faults &&& (f r).faults = r.faults

/-- A level that a fault event can leave a monitor at (R50). -/
def LevelFits (p : MonParams) (old new : MonLevel) : Prop :=
  new = .zero ∨ (new.level < p.t ∧ new.good = old.good)

/-- What operations started by the blocks themselves are made of. -/
inductive Settles : State → State → Prop where
  | refl (s : State) : Settles s s
  | trans {s t u : State} : Settles s t → Settles t u → Settles s u
  | report (r : Report) (s : State) : Settles s (queueReport r s)
  | record (i : Slot) (f : SetRecord → SetRecord) (s : State) (h : Grows f) : Settles s (s.modSet i f)
  | machine {s t : State} (h : SameRecords s t) : Settles s t
  | plates (x : SetHandler) (s : State) (flow : ({ s with sets := x } : State).flow = s.flow)
      (count : x.earlyCount = s.sets.earlyCount)
      (h : ∀ y ∈ ({ s with sets := x } : State).plateStops, y ∈ s.plateStops ∨ s.recordStop y) :
      Settles s { s with sets := x }
  | envelope (l : MonLevel) (s : State) (h : LevelFits s.cfg.envelopeMon s.mon.envelope l) :
      Settles s (putMonLevel .envelope l s)

/-- The outline of a pool after a record of it grew. -/
theorem modSet_flow (s : State) (i : Slot) (f : SetRecord → SetRecord) (h : ∀ r, (f r).outline = r.outline) :
    (s.modSet i f).flow = s.flow := by
  have hp : (s.modSet i f).reg.pool.map (Option.map SetRecord.outline) = s.reg.pool.map (Option.map SetRecord.outline) := by
    ext j hj : 1
    simp only [State.modSet, State.putSet, State.setAt, Vector.getElem_map, Vector.getElem_set, Fin.getElem_fin]
    split
    · subst_vars
      cases s.reg.pool[i.val] <;> simp [h]
    · rfl
  simp only [State.flow, hp]
  rfl

namespace Settles

theorem fixed {s t : State} (h : Settles s t) : t.fixed = s.fixed := by
  induction h with
  | refl => rfl
  | trans _ _ h1 h2 => exact h2.trans h1
  | report => rfl
  | record => rfl
  | machine h => exact h.fixed
  | plates x s flow count h => simp [State.fixed, count]
  | envelope => rfl

theorem flow {s t : State} (h : Settles s t) : t.flow = s.flow := by
  induction h with
  | refl => rfl
  | trans _ _ h1 h2 => exact h2.trans h1
  | report => rfl
  | record i f s h => exact modSet_flow s i f fun r => (h r).1
  | machine h => exact h.flow
  | plates x s flow count h => exact flow
  | envelope => rfl

theorem noSweep {s t : State} (h : Settles s t) : s.NoSweep → t.NoSweep := by
  induction h with
  | refl => exact id
  | trans _ _ h1 h2 => exact h2 ∘ h1
  | report => exact id
  | record => exact id
  | machine h => exact h.sweep
  | plates => exact id
  | envelope => exact id

theorem trays {s t : State} (h : Settles s t) :
    s.NoSweep → s.carrier 11 = none → t.presort = s.presort ∧ t.postage = s.postage := by
  induction h with
  | refl => exact fun _ _ => ⟨rfl, rfl⟩
  | trans h1 _ i1 i2 =>
    intro q h
    have hc : _ := congrArg Flow.carriers h1.flow
    have := i2 (h1.noSweep q) (by simp only [State.flow] at hc; simpa only [State.carrier, hc] using h)
    exact ⟨this.1.trans (i1 q h).1, this.2.trans (i1 q h).2⟩
  | report => exact fun _ _ => ⟨rfl, rfl⟩
  | record => exact fun _ _ => ⟨rfl, rfl⟩
  | machine h => exact h.trays
  | plates => exact fun _ _ => ⟨rfl, rfl⟩
  | envelope => exact fun _ _ => ⟨rfl, rfl⟩

/-- A fold of operations that each settle settles. -/
theorem foldl {α : Type} {f : State → α → State} (h : ∀ s a, Settles s (f s a)) :
    ∀ (l : List α) (s : State), Settles s (l.foldl f s)
  | [], s => .refl s
  | a :: l, s => (h s a).trans (foldl h l (f s a))

/-- A change outside the records, before what settles. -/
theorem via {s t u : State} (h : Settles t u) (same : SameRecords s t) : Settles s u := .trans (.machine same) h

/-- A change of the Set Handler, before what settles. -/
theorem viaPlates {x : SetHandler} {s u : State} (h : Settles { s with sets := x } u)
    (flow : ({ s with sets := x } : State).flow = s.flow) (count : x.earlyCount = s.sets.earlyCount)
    (stops : ∀ y ∈ ({ s with sets := x } : State).plateStops, y ∈ s.plateStops ∨ s.recordStop y) : Settles s u :=
  .trans (.plates x s flow count stops) h

end Settles

variable (s : State)

theorem and_addKind (f : FaultSet) (k : FaultKind) : f &&& addKind f k = f := by
  unfold addKind; ext i; simp; tauto

theorem addFault_settles (k : FaultKind) (i : Slot) : Settles s (addFault k i s) :=
  .record i _ s fun r => ⟨rfl, and_addKind r.faults k⟩

theorem addFault?_settles (k : FaultKind) (i : Option Slot) : Settles s (addFault? k i s) := by
  cases i with
  | none => exact .refl s
  | some i => exact addFault_settles s k i

theorem modSet?_settles (i : Option Slot) (f : SetRecord → SetRecord) (h : Grows f) : Settles s (s.modSet? i f) := by
  cases i with
  | none => exact .refl s
  | some i => exact .record i f s h

theorem enterState_settles (n : LineState) (r : Reason) (h : n ≠ .sweep) : Settles s (enterState n r s) :=
  Settles.via (.report _ _) { sweep := fun w => ⟨h, w.2⟩ }

theorem putStation_settles (n : StationId) (x : Station) : Settles s (putStation n x s) := (.machine {})

theorem putBin_settles (b : BinId) (x : Bin) (h : (s.carrier 11).isSome) : Settles s (putBin b x s) :=
  .machine { trays := fun _ w => by simp [w] at h }

theorem changeStation_settles (n : StationId) (x : StationState) (c : StationCause) :
    Settles s (changeStation n x c s) := by
  unfold changeStation; simp only; split
  · exact .refl s
  · split
    · exact (putStation_settles s n _).trans (.report _ _)
    · exact putStation_settles s n _

theorem queueReports_settles (rs : List Report) : Settles s (queueReports rs s) :=
  Settles.foldl (fun s r => .report r s) rs s

/-! ### Cut-off and stops (R22, R95, R121, R171) -/

theorem cutOffFeed_settles : Settles s (cutOffFeed s) := by
  unfold cutOffFeed; split
  · exact .refl s
  · exact Settles.via (addFault?_settles _ _ _) {}
  · exact addFault_settles s _ _

/-- The folder's part of `cutOffSets`. -/
theorem cutOffFolder_settles : Settles s
    (match s.sets.folder with
      | .moving p1 p2 _ =>
        addFault? .disturbed s.sets.folderSet
          { s with sets.folder := .waiting
                   sets.plate1 := if p1.isSome then none else s.sets.plate1
                   sets.plate2 := if p2.isSome then none else s.sets.plate2 }
      | .folding _ => addFault? .disturbed s.sets.folderSet { s with sets.folder := .waiting }
      | .idle | .waiting => s) := by
  split
  · refine Settles.viaPlates (s := s) (addFault?_settles _ _ _) rfl rfl ?_
    intro y hy
    left
    simp only [State.plateStops, movingStops, List.append_nil, List.mem_append] at hy ⊢
    rcases hy with hy | hy
    · split at hy <;> simp_all
    · split at hy <;> simp_all
  · refine Settles.viaPlates (s := s) (addFault?_settles _ _ _) rfl rfl ?_
    intro y hy
    left
    simp only [State.plateStops, movingStops, List.append_nil, List.mem_append] at hy ⊢
    exact Or.inl hy
  · exact .refl s
  · exact .refl s

theorem cutOffSets_settles : Settles s (cutOffSets s) := by
  unfold cutOffSets
  refine Settles.trans ?_ (cutOffFolder_settles _)
  split
  · exact Settles.via (addFault?_settles _ _ _) {}
  · exact .refl s

theorem cutOffIndex_settles : Settles s (cutOffIndex s) := by
  unfold cutOffIndex; split
  · exact Settles.via (Settles.foldl (fun s i => addFault_settles s _ i) _ _) {}
  · exact .refl s

theorem cutOffStation_settles (n : StationId) : Settles s (cutOffStation s n) := by
  unfold cutOffStation; simp only; split
  · refine Settles.trans (addFault?_settles s .disturbed (s.carrier (stationPosition n))) ?_
    generalize addFault? .disturbed (s.carrier (stationPosition n)) s = t
    split
    · exact (putStation_settles _ _ _).trans (changeStation_settles _ _ _ _)
    · exact putStation_settles _ _ _
  · split
    · exact putStation_settles _ _ _
    · exact .refl s

theorem cutOffHead_settles : Settles s (cutOffHead s) := by
  unfold cutOffHead; simp only
  refine Settles.trans (t := if s.track.head.insert.isSome then
    addFault? .disturbed (s.carrier 8) { s with track.head.pocket := .refilling } else s) ?_ ?_
  · split
    · exact Settles.via (addFault?_settles _ _ _) {}
    · exact .refl s
  · generalize (if s.track.head.insert.isSome then
      addFault? .disturbed (s.carrier 8) { s with track.head.pocket := .refilling } else s) = t
    refine Settles.trans (t := if (t.track.scan.isSome || t.track.weigh.isSome) then
      addFault? .disturbed (t.carrier 10) t else t) ?_ (.machine {})
    split
    · exact addFault?_settles _ _ _
    · exact .refl t

theorem clearDelivery_settles : Settles s { s with track.delivery := none } := .machine {}

theorem cutOffTrack_settles : Settles s (cutOffTrack s) :=
  ((cutOffIndex_settles s).trans (Settles.foldl cutOffStation_settles allStations _)).trans
    ((cutOffHead_settles _).trans (clearDelivery_settles (cutOffHead (allStations.foldl cutOffStation (cutOffIndex s)))))

theorem cutOffAll_settles : Settles s (cutOffAll s) :=
  (cutOffFeed_settles s).trans ((cutOffSets_settles _).trans (cutOffTrack_settles _))

theorem enterFaultStop_settles (r : Reason) : Settles s (enterFaultStop r s) :=
  Settles.via ((enterState_settles _ _ _ (by decide)).trans (cutOffAll_settles _)) {}

theorem setReturn_settles (r : Option LineState) : Settles s { s with line.returnState := r } :=
  .machine {}

theorem faultStop_settles (r : Reason) : Settles s (faultStop r s) := by
  unfold faultStop; split
  iterate 4 exact (setReturn_settles s (some s.line.state)).trans (enterFaultStop_settles _ _)
  · exact enterFaultStop_settles _ _
  · exact .refl s

theorem pauseLine_settles (r : Reason) : Settles s (pauseLine r s) := by
  unfold pauseLine; split <;> first | exact Settles.via (enterState_settles _ _ _ (by decide)) {} | exact .refl s

theorem takeRequest_settles (r : LineRequest) : Settles s (takeRequest s r) := by
  cases r with
  | pause r => exact pauseLine_settles s r
  | stop r => exact faultStop_settles s r

/-! ### The blocks' tests -/

theorem watchZone_still (m : Bool) (x : Timer) (z : JamZone) : (watchZone m x z).still = z.still := by
  have e : ∀ v w : Vector JamSensor 4, (∀ (i : Nat) (h : i < 4), v[i].blocked = w[i].blocked) →
      v.map (fun k => ({ k with timer := none } : JamSensor)) = w.map fun k => { k with timer := none } := by
    intro v w h; ext i hi : 1; simp [h i hi]
  unfold watchZone; split
  · split
    · rfl
    · simp only [JamZone.still, JamZone.mk.injEq, true_and]
      apply e; intro i hi; interval_cases i <;> rfl
  · simp only [JamZone.still, JamZone.mk.injEq, true_and]
    apply e; intro i hi; interval_cases i <;> rfl

theorem watchZones_fixed : (watchZones s).fixed = s.fixed := by
  have e : (watchZones s).track.zones.map JamZone.still = s.track.zones.map JamZone.still := by
    ext i hi : 1
    simp only [Vector.getElem_map]
    interval_cases i <;> exact watchZone_still _ _ _
  simp only [State.fixed, e]; rfl

theorem watchZones_settles : Settles s (watchZones s) := (.machine { fixed := watchZones_fixed s })

theorem refreshHold_settles : Settles s (refreshHold s) := (.machine {})

theorem refresh_settles : Settles s (refresh s) := (watchZones_settles s).trans (refreshHold_settles _)

theorem purgeDone_settles : Settles s (purgeDone s) := by
  unfold purgeDone; split <;> exact Settles.via (enterState_settles _ _ _ (by decide)) {}

theorem purgeAct_settles : Settles s (purgeAct s) := by
  unfold purgeAct; split
  · exact purgeDone_settles s
  · exact .refl s

theorem gateAct_settles : Settles s (gateAct s) := by
  unfold gateAct; split
  · split
    · exact .machine {}
    · exact .refl s
  · exact .refl s

theorem reportEarlyFull_settles : Settles s (reportEarlyFull s) := by
  unfold reportEarlyFull; split
  · exact Settles.via (.report _ _) {}
  · exact .refl s

theorem releaseAct_settles : Settles s (releaseAct s) := by
  unfold releaseAct; split
  · split
    · split
      · exact .machine {}
      · exact reportEarlyFull_settles s
    · split
      · exact .machine {}
      · exact .refl s
  · exact .refl s

theorem startMove_settles : Settles s (startMove s) := by
  refine .plates _ s rfl rfl ?_
  intro y hy
  simp only [State.plateStops, movingStops, List.mem_append] at hy
  rcases hy with (hy | hy) | (hy | hy)
  · left; simp [State.plateStops, hy]
  · left; simp [State.plateStops, hy]
  · right
    simp only [State.plateMoves, State.setAt?] at hy
    rcases hs : s.sets.folderSet with _ | i
    · simp [hs] at hy
    · rcases hr : s.setAt i with _ | r
      · simp [hs, hr] at hy
      · refine ⟨i, r, hr, .inl ?_⟩
        simp only [hs, hr, Option.bind_some] at hy
        split at hy <;> simp_all
  · right
    simp only [State.plateMoves, State.setAt?] at hy
    rcases hs : s.sets.folderSet with _ | i
    · simp [hs] at hy
    · rcases hr : s.setAt i with _ | r
      · simp [hs, hr] at hy
      · refine ⟨i, r, hr, .inr ?_⟩
        simp only [hs, hr, Option.bind_some] at hy
        split at hy <;> simp_all

theorem startFold_settles : Settles s (startFold s) := by
  refine .plates _ s rfl rfl ?_
  intro y hy
  left
  simp only [State.plateStops, movingStops, List.append_nil, List.mem_append] at hy ⊢
  exact Or.inl hy

theorem folderAct_settles : Settles s (folderAct s) := by
  unfold folderAct; split
  · split
    · exact startMove_settles s
    · split
      · exact startFold_settles s
      · exact .refl s
  · exact .refl s

theorem dropAct_settles (n : StationId) : Settles s (dropAct n s).1 := by
  unfold dropAct; split
  · simp only; split
    · exact putStation_settles s _ _
    · exact .refl s
    · exact .refl s
    · split
      · exact .refl s
      · exact .refl s
      · exact addFault?_settles s _ _
      · exact .refl s
    · exact addFault?_settles s _ _
    · exact addFault?_settles s _ _
  · exact .refl s

theorem refillAct_settles (n : StationId) : Settles s (refillAct n s) := by
  unfold refillAct; simp only; split
  · split
    · exact putStation_settles s _ _
    · exact .refl s
  · exact .refl s

theorem tripEnvelope_settles (c : TripCause) (l : Nat) (p : Option Nat) :
    Settles s (tripMonitor .envelope c l p s).1 := by
  exact Settles.trans (.envelope .zero s (.inl rfl)) (.report _ _)

theorem faultEnvelope_settles (c : TripCause) (p : Option Nat) : Settles s (faultEvent .envelope c p s).1 := by
  unfold faultEvent; split
  · simp only; split
    · refine .envelope _ s (.inr ⟨?_, rfl⟩)
      assumption
    · exact tripEnvelope_settles s _ _ _
  · exact .refl s

theorem insertAct_settles : Settles s (insertAct s).1 := by
  unfold insertAct; split
  · split
    · exact .machine {}
    · exact .refl s
    · refine Settles.trans (modSet?_settles s _ _ ?_) (Settles.via (faultEnvelope_settles _ _ _) {})
      exact fun r => ⟨rfl, and_addKind r.faults _⟩
  · exact .refl s

theorem envelopeAct_settles : Settles s (envelopeAct s) := by
  unfold envelopeAct; split
  · exact .machine {}
  · exact .refl s

theorem scanAct_settles : Settles s (scanAct s) := by
  unfold scanAct; split
  · exact .machine {}
  · exact .refl s

theorem weighAct_settles : Settles s (weighAct s) := by
  unfold weighAct; split
  · exact .machine {}
  · exact .refl s

/-! ### Trays -/

theorem putTotals_retained (g : Postage) (l : Level) (t : LevelTotals) : (g.putTotals l t).retained = g.retained := by
  cases l <;> rfl

theorem listTray_settles (b : BinId) (t : Tray) (c : CloseCause) (h : (s.carrier 11).isSome) :
    Settles s (listTray b t c s) :=
  Settles.via (.report _ _) { fixed := by simp [State.fixed, putTotals_retained], trays := fun _ w => by simp [w] at h }

theorem closeBin_settles (b : BinId) (c : CloseCause) (h : (s.carrier 11).isSome) : Settles s (closeBin b c s) := by
  unfold closeBin; split
  · exact (listTray_settles s _ _ _ h).trans ((putBin_settles (listTray b _ c s) _ _ h).trans (.report _ _))
  · exact .refl s

theorem openTray_settles (b : BinId) (g p : Nat) (h : (s.carrier 11).isSome) : Settles s (openTray b g p s) := by
  unfold openTray; split
  · exact .refl s
  · exact Settles.via (Settles.trans
      (putBin_settles { s with presort.nextTray := some (nextNumber (s.presort.nextTray.getD 1)) } _ _ h) (.report _ _))
      { trays := fun _ w => by simp [w] at h }

theorem joinTray_settles (b : BinId) (p w k : Nat) (h : (s.carrier 11).isSome) : Settles s (joinTray b p w k s) := by
  unfold joinTray; split
  · simp only; split
    · exact (putBin_settles s _ _ h).trans (closeBin_settles _ _ _ h)
    · exact putBin_settles s _ _ h
  · exact .refl s

theorem openTray_carrier (b : BinId) (g p : Nat) (k : Position) : (openTray b g p s).carrier k = s.carrier k := by
  unfold openTray; split <;> rfl

theorem assignBin_settles (i : Slot) (r : SetRecord) (h : (s.carrier 11).isSome) : Settles s (assignBin i r s).1 := by
  unfold assignBin; simp only; split
  · refine (openTray_settles s _ _ _ h).trans
      (Settles.trans (.record i _ _ ?_) (Settles.via (joinTray_settles _ _ _ _ _ ?_) {}))
    · exact fun r => ⟨rfl, BitVec.and_self⟩
    · rw [← openTray_carrier] at h; exact h
  · exact .refl s

theorem assignRequest_settles : Settles s (assignRequest s) := by
  unfold assignRequest
  rcases hc : s.carrier 11 with _ | i
  · exact .refl s
  · simp only
    rcases s.setAt i with _ | r
    · exact .refl s
    · simp only
      have h : Settles s (assignBin i r { s with track.assignDue := false }).1 :=
        Settles.via (assignBin_settles _ i r (congrArg Option.isSome hc)) {}
      revert h
      generalize assignBin i r { s with track.assignDue := false } = p
      obtain ⟨s2, b⟩ := p
      intro h
      cases b
      · simp only
        split
        · exact h
        · exact h.trans (Settles.via (.report _ _) {})
      · exact h

theorem assignAct_settles : Settles s (assignAct s) := by
  unfold assignAct; split
  · exact assignRequest_settles s
  · exact .refl s

theorem dropActs_settles (l : List StationId) :
    ∀ p : State × List LineRequest, Settles p.1 (l.foldl dropActs p).1 := by
  induction l with
  | nil => intro p; exact .refl _
  | cons n l ih => intro p; exact (dropAct_settles p.1 n).trans (ih (dropActs p n))

/-- The positions after P1 to P6. -/
def headActs (s : State) : State := assignAct (weighAct (scanAct (envelopeAct (insertAct s).1)))

theorem headActs_settles : Settles s (headActs s) := by
  unfold headActs
  exact (insertAct_settles s).trans ((envelopeAct_settles _).trans ((scanAct_settles _).trans
    ((weighAct_settles _).trans (assignAct_settles _))))

theorem positionActs_fst :
    (positionActs s).1 = headActs (allStations.foldl dropActs (allStations.foldl (fun s n => refillAct n s) s, [])).1 := by
  simp only [positionActs, headActs]

theorem positionActs_settles : Settles s (positionActs s).1 := by
  rw [positionActs_fst]
  refine Settles.trans ?_ (headActs_settles _)
  refine Settles.trans (Settles.foldl (fun s n => refillAct_settles s n) allStations s) ?_
  generalize allStations.foldl (fun s n => refillAct n s) s = t
  exact dropActs_settles allStations (t, [])

theorem positionsAct_settles : Settles s (positionsAct s) :=
  (positionActs_settles s).trans (Settles.foldl takeRequest_settles (positionActs s).2 (positionActs s).1)

theorem indexAct_settles : Settles s (indexAct s) := by
  have h : Settles s (reportLateFull s) := by
    unfold reportLateFull; split
    · exact Settles.via (.report _ _) {}
    · exact .refl s
  refine h.trans ?_
  unfold indexAct
  generalize reportLateFull s = t
  unfold startIndex; split
  · split
    · exact .machine {}
    · unfold reportExitBlocked; split
      · exact Settles.via (.report _ _) {}
      · exact .refl t
  · exact .refl t

theorem feedAct_settles : Settles s (feedAct s) := by
  unfold feedAct; split
  · exact .machine {}
  · split
    · exact Settles.via (.report _ _) {}
    · exact .refl s
  · exact .refl s

theorem pauseAct_settles : Settles s (pauseAct s) := by
  unfold pauseAct; split
  · split
    · exact Settles.via (enterState_settles _ _ _ (by decide)) {}
    · exact .machine {}
  · exact .refl s

theorem runoutAct_settles : Settles s (runoutAct s) := by
  unfold runoutAct; split
  · split
    · rename_i _ h
      exact Settles.via (.report _ _) { sweep := fun w => absurd h w.2, trays := fun w => absurd h w.2 }
    · exact Settles.via (enterState_settles _ _ _ (by decide)) { sweep := fun w => ⟨w.1, RunoutTarget.noConfusion⟩ }
  · exact .refl s

/-- Everything `settle` does before the sweep. -/
def settleWork (s : State) : State :=
  runoutAct (pauseAct (feedAct (indexAct (positionsAct (folderAct (releaseAct (gateAct (purgeAct s))))))))

theorem settle_eq : settle s = refresh (sweepAct (settleWork s)) := rfl

theorem settleWork_settles : Settles s (settleWork s) :=
  (purgeAct_settles s).trans ((gateAct_settles _).trans ((releaseAct_settles _).trans ((folderAct_settles _).trans
    ((positionsAct_settles _).trans ((indexAct_settles _).trans ((feedAct_settles _).trans
      ((pauseAct_settles _).trans (runoutAct_settles _))))))))

/-! ### The end of a job -/

theorem sweepBins_fixed (l : List BinId) : ∀ s : State, (sweepBins l s).1.fixed = s.fixed := by
  induction l with
  | nil => intro s; rfl
  | cons b l ih =>
    intro s
    unfold sweepBins; split
    · split
      · rfl
      · refine (ih _).trans ?_
        unfold closeBin; split
        · simp [State.fixed, listTray, putTotals_retained]
        · rfl
    · exact ih s

theorem sweepAct_fixed : (sweepAct s).fixed = s.fixed := by
  unfold sweepAct; split
  · have h := sweepBins_fixed (allBins.drop (s.presort.sweepPosition.getD 0)) s
    split
    · rename_i e; rw [e] at h; exact h
    · rename_i e; rw [e] at h; exact h
  · rfl

theorem sweepAct_noSweep (h : s.NoSweep) : sweepAct s = s := by
  unfold sweepAct; rw [if_neg h.1]

/-! ### What `settle` and `react` leave alone -/

theorem settle_fixed : (settle s).fixed = s.fixed := by
  rw [settle_eq, (refresh_settles _).fixed, sweepAct_fixed, (settleWork_settles s).fixed]

/-- Where no job is about to end, `settle` is what the blocks start of their own accord. -/
theorem settle_settles (h : s.NoSweep) : Settles s (settle s) := by
  have w := settleWork_settles s
  rw [settle_eq, sweepAct_noSweep _ (w.noSweep h)]
  exact w.trans (refresh_settles _)

theorem react_fixed : (react s).fixed = s.fixed := by
  rw [react, settle_fixed, (watchZones_settles s).fixed]

theorem react_settles (h : s.NoSweep) : Settles s (react s) :=
  (watchZones_settles s).trans (settle_settles _ h)

theorem react_flow (h : s.NoSweep) : (react s).flow = s.flow := (react_settles s h).flow

theorem react_trays (h : s.NoSweep) (h11 : s.carrier 11 = none) :
    (react s).presort = s.presort ∧ (react s).postage = s.postage := (react_settles s h).trays h h11

end Sys2Proof.Machine
end

