-- ==== Sys2Proof/Laws/Rest.lean ====
section
/-! SUPPORT. A line at rest: no block starts anything of its own accord, so that `react` only brings the jam timers and the
feed hold up to date. -/

namespace Sys2Proof.Machine

variable (s : State)

/-- What `refresh` writes: the jam zones and the feed hold. -/
theorem refresh_eq : refresh s =
    { s with track.zones := (watchZones s).track.zones, coll.feedHold := (refresh s).coll.feedHold } := rfl

theorem watchZones_eq : watchZones s = { s with track.zones := (watchZones s).track.zones } := rfl

@[simp] theorem refresh_line : (refresh s).line = s.line := rfl
@[simp] theorem refresh_link : (refresh s).link = s.link := rfl
@[simp] theorem refresh_reg : (refresh s).reg = s.reg := rfl
@[simp] theorem refresh_sets : (refresh s).sets = s.sets := rfl
@[simp] theorem refresh_mon : (refresh s).mon = s.mon := rfl
@[simp] theorem refresh_presort : (refresh s).presort = s.presort := rfl
@[simp] theorem refresh_postage : (refresh s).postage = s.postage := rfl
@[simp] theorem refresh_fixed : (refresh s).fixed = s.fixed := watchZones_fixed s
@[simp] theorem refresh_flow : (refresh s).flow = s.flow := rfl
@[simp] theorem refresh_track_stations : (refresh s).track.stations = s.track.stations := rfl
@[simp] theorem refresh_track_head : (refresh s).track.head = s.track.head := rfl
@[simp] theorem refresh_transit : (refresh s).coll.transit = s.coll.transit := rfl

variable {s}

theorem motion_of_atRest (h : s.line.state.atRest = true) : s.motion = false := by
  unfold State.motion; revert h; cases s.line.state <;> simp [LineState.atRest, LineState.motion]

theorem working_of_still (h : s.motion = false) : s.working = false := by
  unfold State.working; revert h; unfold State.motion; cases s.line.state <;> simp [LineState.motion, LineState.working]

theorem noSweep_of_atRest (h : s.line.state.atRest = true) : s.line.state ≠ .sweep := by
  revert h; cases s.line.state <;> simp [LineState.atRest]

theorem purgeAct_still (h : s.motion = false) : purgeAct s = s := by
  unfold purgeAct
  have : s.line.state ≠ .purge := by revert h; unfold State.motion; cases s.line.state <;> simp [LineState.motion]
  simp [this]

theorem gateAct_still (h : s.motion = false) : gateAct s = s := by
  unfold gateAct State.gateReady; rw [working_of_still h]; split <;> simp

theorem releaseAct_still (h : s.motion = false) : releaseAct s = s := by
  unfold releaseAct; rw [working_of_still h]; simp

theorem folderAct_still (h : s.motion = false) : folderAct s = s := by
  unfold folderAct State.folderReady; rw [working_of_still h]; simp

theorem dropAct_still (h : s.motion = false) (n : StationId) : dropAct n s = (s, none) := by
  unfold dropAct; rw [h]; simp

theorem refillAct_still (h : s.motion = false) (n : StationId) : refillAct n s = s := by
  unfold refillAct; simp only [h]; split <;> simp

theorem foldl_refillAct_still (h : s.motion = false) (l : List StationId) :
    l.foldl (fun s n => refillAct n s) s = s := by
  induction l with
  | nil => rfl
  | cons n l ih => rw [List.foldl_cons, refillAct_still h, ih]

theorem foldl_dropActs_still (h : s.motion = false) (l : List StationId) :
    l.foldl dropActs (s, []) = (s, []) := by
  induction l with
  | nil => rfl
  | cons n l ih => rw [List.foldl_cons]; simpa [dropActs, dropAct_still h] using ih

theorem insertAct_still (h : s.motion = false) : insertAct s = (s, none) := by
  unfold insertAct; rw [h]; simp

theorem positionActs_still (h : s.motion = false) : positionActs s = (s, []) := by
  unfold positionActs
  simp [foldl_refillAct_still h, foldl_dropActs_still h, insertAct_still h, envelopeAct, scanAct, weighAct, assignAct, h]

theorem positionsAct_still (h : s.motion = false) : positionsAct s = s := by
  unfold positionsAct; rw [positionActs_still h]; rfl

theorem indexAct_still (h : s.motion = false) : indexAct s = s := by
  have l : s.lateWaiting = false := by unfold State.lateWaiting; rw [h]; split <;> simp
  have w : s.indexWanted = false := by unfold State.indexWanted; rw [h]; simp
  simp [indexAct, reportLateFull, startIndex, l, w]

theorem feedBlock_still (h : s.motion = false) : s.feedBlock = .line := by
  unfold State.feedBlock; revert h; unfold State.motion; cases s.line.state <;> simp [LineState.motion]

theorem feedAct_still (h : s.motion = false) : feedAct s = s := by
  unfold feedAct; rw [feedBlock_still h]

theorem runoutAct_still (h : s.motion = false) : runoutAct s = s := by
  unfold runoutAct
  have : s.line.state ≠ .runout := by revert h; unfold State.motion; cases s.line.state <;> simp [LineState.motion]
  simp [this]

theorem pauseAct_atRest (h : s.line.state.atRest = true) : pauseAct s = s := by
  unfold pauseAct; rw [if_neg]; intro e; rw [e] at h; cases h

theorem sweepAct_atRest (h : s.line.state.atRest = true) : sweepAct s = s := by
  unfold sweepAct; rw [if_neg (noSweep_of_atRest h)]

/-- At rest the blocks start nothing. -/
theorem settleWork_atRest (h : s.line.state.atRest = true) : settleWork s = s := by
  have m := motion_of_atRest h
  unfold settleWork
  rw [purgeAct_still m, gateAct_still m, releaseAct_still m, folderAct_still m, positionsAct_still m,
    indexAct_still m, feedAct_still m, pauseAct_atRest h, runoutAct_still m]

theorem settle_atRest (h : s.line.state.atRest = true) : settle s = refresh s := by
  rw [settle_eq, settleWork_atRest h, sweepAct_atRest h]

/-- At rest `react` only brings the jam timers and the feed hold up to date. -/
theorem react_atRest (h : s.line.state.atRest = true) : react s = refresh (watchZones s) :=
  settle_atRest (s := watchZones s) h

/-- In PAUSING the blocks start nothing, and the line goes to PAUSED when every section has come to rest (R164). -/
theorem settle_pausing (h : s.line.state = .pausing) : settle s = refresh (pauseAct s) := by
  have m : s.motion = false := by unfold State.motion; rw [h]; rfl
  have r : runoutAct (pauseAct s) = pauseAct s ∧ (pauseAct s).line.state ≠ .sweep := by
    unfold pauseAct; rw [if_pos h]; split
    · exact ⟨rfl, by simp [enterState]⟩
    · exact ⟨by simp [runoutAct, h], by simp [h]⟩
  rw [settle_eq]; unfold settleWork
  rw [purgeAct_still m, gateAct_still m, releaseAct_still m, folderAct_still m, positionsAct_still m,
    indexAct_still m, feedAct_still m, r.1, sweepAct, if_neg r.2]

theorem react_pausing (h : s.line.state = .pausing) : react s = refresh (pauseAct (watchZones s)) :=
  settle_pausing (s := watchZones s) h

end Sys2Proof.Machine
end

