-- ==== Sys2Proof/Laws/Calm.lean ====
section
/-! SUPPORT. What the blocks start of their own accord while none of them asks for a stop or a pause (`State.Calm`): every
outstanding operation goes on, and each position starts the work it awaits. -/

namespace Sys2Proof.Machine

variable {s : State}

/-! ### One position's act on the other positions -/

theorem addFault?_track (k : FaultKind) (i : Option Slot) (s : State) : (addFault? k i s).track = s.track := by
  cases i <;> rfl

theorem dropAct_calm (h : s.Calm) (n : StationId) : (dropAct n s).2 = none := by
  unfold dropAct; split
  · have := h.2 n
    simp only; split <;> first | rfl | (rename_i e; exact absurd e this)
  · rfl

theorem station_putStation (n m : StationId) (x : Station) (s : State) :
    (putStation n x s).station m = if m = n then x else s.station m := by
  simp only [State.station, putStation, Fin.getElem_fin, Vector.getElem_set]
  by_cases h : m = n
  · subst h; simp
  · rw [if_neg (fun e => h (Fin.ext e).symm), if_neg h]

/-- What a station's drop test makes of the stations: its own is set DROPPING, or none changes. -/
theorem dropAct_station (n m : StationId) (s : State) :
    (dropAct n s).1.station m = s.station m ∨
      (m = n ∧ (s.station n).state = .ready ∧ s.motion = true ∧ s.awaitsDrop n = true ∧
        (dropAct n s).1.station m = { s.station n with
          state := .dropping, drop := some (s.timer s.plant.stations[n].dropTimeout) }) := by
  unfold dropAct; split
  · rename_i hm
    simp only [Bool.and_eq_true] at hm
    simp only; split
    · rename_i e
      by_cases hn : m = n
      · subst hn; right; exact ⟨rfl, e, hm.1, hm.2, by simp⟩
      · left; simp [station_putStation, hn]
    · left; rfl
    · left; rfl
    · left; split <;> first | rfl | simp [State.station, addFault?_track]
    · left; simp [State.station, addFault?_track]
    · left; simp [State.station, addFault?_track]
  · left; rfl

theorem dropAct_head (n : StationId) (s : State) : (dropAct n s).1.track.head = s.track.head := by
  unfold dropAct; split
  · simp only; split <;> first | rfl | simp [addFault?_track] | (split <;> first | rfl | simp [addFault?_track])
  · rfl

theorem dropAct_keepsCalm (h : s.Calm) (n : StationId) : (dropAct n s).1.Calm := by
  refine ⟨by rw [dropAct_head]; exact h.1, fun m => ?_⟩
  rcases dropAct_station n m s with e | ⟨-, -, -, -, e⟩
  · rw [e]; exact h.2 m
  · rw [e]; simp

theorem refillAct_station (n m : StationId) (s : State) :
    (refillAct n s).station m = if m = n then (refillAct n s).station n else s.station m := by
  by_cases h : m = n
  · subst h; simp
  · rw [if_neg h]; unfold refillAct; simp only; split
    · split
      · simp [station_putStation, h]
      · rfl
    · rfl

theorem refillAct_state (n m : StationId) (s : State) : ((refillAct n s).station m).state = (s.station m).state := by
  unfold refillAct; simp only; split
  · split
    · rw [station_putStation]; split
      · rename_i e; subst e; rfl
      · rfl
    · rfl
  · rfl

theorem refillAct_head (n : StationId) (s : State) : (refillAct n s).track.head = s.track.head := by
  unfold refillAct; simp only; split
  · split <;> rfl
  · rfl

theorem refillAct_keepsCalm (h : s.Calm) (n : StationId) : (refillAct n s).Calm :=
  ⟨by rw [refillAct_head]; exact h.1, fun m => by rw [refillAct_state]; exact h.2 m⟩

theorem insertAct_calm (h : s.Calm) : (insertAct s).2 = none := by
  unfold insertAct; split
  · split
    · rfl
    · rfl
    · rename_i e; exact absurd e h.1
  · rfl

/-! ### All positions -/

theorem foldl_refillAct_calm (h : s.Calm) (l : List StationId) : (l.foldl (fun s n => refillAct n s) s).Calm := by
  induction l generalizing s with
  | nil => exact h
  | cons n l ih => exact ih (refillAct_keepsCalm h n)

theorem foldl_dropActs_calm (h : s.Calm) (l : List StationId) :
    (l.foldl dropActs (s, [])).2 = [] ∧ (l.foldl dropActs (s, [])).1.Calm := by
  induction l generalizing s with
  | nil => exact ⟨rfl, h⟩
  | cons n l ih =>
    have : dropActs (s, []) n = ((dropAct n s).1, []) := by simp [dropActs, dropAct_calm h n]
    rw [List.foldl_cons, this]; exact ih (dropAct_keepsCalm h n)

/-- While the blocks are calm no position asks for a stop or a pause. -/
theorem positionActs_calm (h : s.Calm) : (positionActs s).2 = [] := by
  have h1 := foldl_refillAct_calm h allStations
  have h2 := foldl_dropActs_calm h1 allStations
  unfold positionActs
  simp only [h2.1, insertAct_calm h2.2, Option.toList_none, List.append_nil]

theorem positionsAct_calm (h : s.Calm) :
    positionsAct s = headActs (allStations.foldl dropActs (allStations.foldl (fun s n => refillAct n s) s, [])).1 := by
  unfold positionsAct; rw [positionActs_calm h, List.foldl_nil, positionActs_fst]

/-! ### What calm blocks start -/

/-- How a station goes on while it is not given a drop: as it stands, or with its due refill attempt started. -/
def GoesOn (x y : Station) : Prop :=
  y = x ∨ ∃ k t, x.seq = .waiting k ∧ y = { x with seq := .running k t }

theorem GoesOn.trans {x y z : Station} (h1 : GoesOn x y) (h2 : GoesOn y z) : GoesOn x z := by
  rcases h1 with rfl | ⟨k, t, h, rfl⟩
  · exact h2
  · rcases h2 with rfl | ⟨k', t', h', rfl⟩
    · exact .inr ⟨k, t, h, rfl⟩
    · simp at h'

theorem GoesOn.state {x y : Station} (h : GoesOn x y) : y.state = x.state := by
  rcases h with rfl | ⟨_, _, _, rfl⟩ <;> rfl

/-- What calm blocks can do: each item outstanding stays as it is, and only what is due starts. -/
structure Starts (s t : State) : Prop where
  transit : s.coll.transit ≠ .none → t.coll.transit = s.coll.transit
  closedTag : t.coll.closedTag = s.coll.closedTag
  released : s.sets.release ≠ .pending → t.sets.release = s.sets.release
  pending : s.sets.release = .pending → t.sets.release ≠ .none
  folder : s.sets.folder ≠ .waiting → t.sets.folder = s.sets.folder
  waiting : s.sets.folder = .waiting → t.sets.folder ≠ .idle
  plate1 : t.sets.plate1 = s.sets.plate1
  plate2 : t.sets.plate2 = s.sets.plate2
  gate : (∀ i, s.sets.gate ≠ .closed (some i)) → t.sets.gate = s.sets.gate
  station : ∀ n, (s.station n).state ≠ .ready → GoesOn (s.station n) (t.station n)
  ready : ∀ n, s.awaitsDrop n = false → GoesOn (s.station n) (t.station n)
  awaits : ∀ n, s.awaitsDrop n = false → t.awaitsDrop n = false
  pocket : t.track.head.pocket = s.track.head.pocket
  insert : s.track.head.insert.isSome → t.track.head.insert = s.track.head.insert
  refill : s.track.head.refill.isSome → t.track.head.refill = s.track.head.refill
  scan : s.track.scan.isSome → t.track.scan = s.track.scan
  weigh : s.track.weigh.isSome → t.track.weigh = s.track.weigh
  index : s.track.index.isSome → t.track.index = s.track.index
  pitches : t.track.purgePitches = s.track.purgePitches
  delivery : t.track.delivery = s.track.delivery
  envelope : t.mon.envelope = s.mon.envelope
  returnState : t.line.returnState = s.line.returnState
  origin : t.line.origin = s.line.origin
  stopReason : t.line.stopReason = s.line.stopReason
  running : s.line.state = .running ∨ s.line.state = .proving → t.line = s.line
  purge : s.line.state = .purge → s.track.purgePitches ≠ 0 → s.line.purgeHeldDone = false → t.line = s.line

namespace Starts

theorem refl (s : State) : Starts s s := by
  constructor <;> intros <;> first | rfl | assumption | exact .inl rfl | simp_all

theorem trans {s t u : State} (h : Starts s t) (g : Starts t u) : Starts s u where
  transit q := (g.transit (by rw [h.transit q]; exact q)).trans (h.transit q)
  closedTag := g.closedTag.trans h.closedTag
  released q := (g.released (by rw [h.released q]; exact q)).trans (h.released q)
  pending q := by
    by_cases e : t.sets.release = .pending
    · exact g.pending e
    · rw [g.released e]; exact h.pending q
  folder q := (g.folder (by rw [h.folder q]; exact q)).trans (h.folder q)
  waiting q := by
    by_cases e : t.sets.folder = .waiting
    · exact g.waiting e
    · rw [g.folder e]; exact h.waiting q
  plate1 := g.plate1.trans h.plate1
  plate2 := g.plate2.trans h.plate2
  gate q := (g.gate (by rw [h.gate q]; exact q)).trans (h.gate q)
  station n q := (h.station n q).trans (g.station n (by rw [(h.station n q).state]; exact q))
  ready n q := (h.ready n q).trans (g.ready n (h.awaits n q))
  awaits n q := g.awaits n (h.awaits n q)
  pocket := g.pocket.trans h.pocket
  insert q := (g.insert (by rw [h.insert q]; exact q)).trans (h.insert q)
  refill q := (g.refill (by rw [h.refill q]; exact q)).trans (h.refill q)
  scan q := (g.scan (by rw [h.scan q]; exact q)).trans (h.scan q)
  weigh q := (g.weigh (by rw [h.weigh q]; exact q)).trans (h.weigh q)
  index q := (g.index (by rw [h.index q]; exact q)).trans (h.index q)
  pitches := g.pitches.trans h.pitches
  delivery := g.delivery.trans h.delivery
  envelope := g.envelope.trans h.envelope
  returnState := g.returnState.trans h.returnState
  origin := g.origin.trans h.origin
  stopReason := g.stopReason.trans h.stopReason
  running q := (g.running (by rw [h.running q]; exact q)).trans (h.running q)
  purge q1 q2 q3 := by
    have e := h.purge q1 q2 q3
    exact (g.purge (by rw [e]; exact q1) (by rw [h.pitches]; exact q2) (by rw [e]; exact q3)).trans e

end Starts

/-! ### Faults only grow -/

/-- A record in a pool follows another: its outline is the same, and it has every fault the other had. -/
def Follows (x y : Option SetRecord) : Prop :=
  match x, y with
  | none, none => True
  | some r, some q => q.outline = r.outline ∧ r.faults &&& q.faults = r.faults
  | _, _ => False

theorem Follows.refl (x : Option SetRecord) : Follows x x := by cases x <;> simp [Follows]

theorem Follows.trans {x y z : Option SetRecord} (h : Follows x y) (g : Follows y z) : Follows x z := by
  cases x <;> cases y <;> cases z <;> simp only [Follows] at h g ⊢
  refine ⟨g.1.trans h.1, ?_⟩
  rename_i a b c
  have h2 := h.2
  have g2 := g.2
  calc a.faults &&& c.faults = (a.faults &&& b.faults) &&& c.faults := by rw [h2]
    _ = a.faults &&& (b.faults &&& c.faults) := BitVec.and_assoc _ _ _
    _ = a.faults &&& b.faults := by rw [g2]
    _ = a.faults := h2

theorem setAt_modSet (i j : Slot) (f : SetRecord → SetRecord) (s : State) :
    (s.modSet i f).setAt j = if j = i then (s.setAt j).map f else s.setAt j := by
  simp only [State.modSet, State.putSet, State.setAt, Fin.getElem_fin, Vector.getElem_set]
  by_cases h : j = i
  · subst h; simp
  · rw [if_neg (fun e => h (Fin.ext e).symm), if_neg h]

/-- A set keeps its outline and its faults through what the blocks start (R44). -/
theorem Settles.follows {s t : State} (h : Settles s t) (i : Slot) : Follows (s.setAt i) (t.setAt i) := by
  induction h with
  | refl => exact .refl _
  | trans _ _ h1 h2 => exact h1.trans h2
  | report => exact .refl _
  | record j f s h =>
    rw [setAt_modSet]; split
    · cases s.setAt i with
      | none => trivial
      | some r => exact h r
    · exact .refl _
  | machine h =>
    rw [State.setAt, State.setAt, h.reg]; exact .refl _
  | plates => exact .refl _
  | envelope => exact .refl _

theorem Settles.carrier {s t : State} (h : Settles s t) (p : Position) : t.carrier p = s.carrier p :=
  congrArg (fun f => f.carriers[p]) h.flow

/-- A carrier that awaits no drop comes to await none. -/
theorem Settles.awaitsDrop {s t : State} (h : Settles s t) (n : StationId) (hn : s.awaitsDrop n = false) :
    t.awaitsDrop n = false := by
  unfold State.awaitsDrop State.setAt? at hn ⊢
  rw [h.carrier]
  cases hc : s.carrier (stationPosition n) with
  | none => rfl
  | some i =>
    have f := h.follows i
    simp only [hc, Option.bind_some] at hn ⊢
    cases hr : s.setAt i with
    | none => rw [hr] at f; cases ht : t.setAt i with
      | none => rfl
      | some q => rw [ht] at f; exact f.elim
    | some r => rw [hr] at f hn; cases ht : t.setAt i with
      | none => rfl
      | some q =>
        rw [ht] at f
        have ho := f.1
        have e1 : q.outline.stationsNeeded = r.outline.stationsNeeded := congrArg SetRecord.stationsNeeded ho
        have e2 : q.outline.stationsDone = r.outline.stationsDone := congrArg SetRecord.stationsDone ho
        simp only [SetRecord.outline] at e1 e2
        simp only [e1, e2] at hn ⊢
        by_cases hf : q.faults = 0
        · have : r.faults = 0 := by rw [← f.2, hf]; simp
          simpa [hf, this] using hn
        · simp only [show decide (q.faults = 0) = false by simpa using hf, Bool.false_and]

/-! ### Each block's test, while the blocks are calm -/

theorem purgeDone_starts (h : s.line.state = .purge) (hp : s.track.purgePitches = 0 ∨ s.line.purgeHeldDone = true) :
    Starts s (purgeDone s) := by
  have a := fun n => (purgeDone_settles s).awaitsDrop n
  revert a
  unfold purgeDone
  split <;> intro a <;> constructor <;> intros <;>
    first | rfl | assumption | exact .inl rfl | exact a _ ‹_› | simp_all [enterState, queueReport]

theorem purgeAct_starts : Starts s (purgeAct s) := by
  unfold purgeAct; split
  · rename_i h; simp at h; exact purgeDone_starts h.1 h.2
  · exact .refl s

theorem gateAct_starts : Starts s (gateAct s) := by
  have a := fun n => (gateAct_settles s).awaitsDrop n
  revert a
  unfold gateAct
  split
  · rename_i i hg
    split <;> intro a
    · constructor <;> intros <;> first | rfl | assumption | exact .inl rfl | exact a _ ‹_› | simp_all
    · exact .refl s
  · exact fun _ => .refl s

theorem reportEarlyFull_starts : Starts s (reportEarlyFull s) := by
  have a := fun n => (reportEarlyFull_settles s).awaitsDrop n
  revert a
  unfold reportEarlyFull; split <;> intro a
  · constructor <;> intros <;> first | rfl | assumption | exact .inl rfl | exact a _ ‹_› | simp_all [queueReport]
  · exact .refl s

theorem releaseAct_starts : Starts s (releaseAct s) := by
  have a := fun n => (releaseAct_settles s).awaitsDrop n
  revert a
  unfold releaseAct; split
  · rename_i hr
    simp only [Bool.and_eq_true, decide_eq_true_eq] at hr
    split
    · split <;> intro a
      · constructor <;> intros <;> first | rfl | assumption | exact .inl rfl | exact a _ ‹_› | simp_all
      · exact reportEarlyFull_starts
    · split <;> intro a
      · constructor <;> intros <;> first | rfl | assumption | exact .inl rfl | exact a _ ‹_› | simp_all
      · exact .refl s
  · exact fun _ => .refl s

theorem folderAct_starts : Starts s (folderAct s) := by
  have a := fun n => (folderAct_settles s).awaitsDrop n
  revert a
  unfold folderAct; split
  · rename_i hr
    simp only [State.folderReady, Bool.and_eq_true, decide_eq_true_eq] at hr
    split
    · intro a; constructor <;> intros <;> first | rfl | assumption | exact .inl rfl | exact a _ ‹_› | simp_all [startMove]
    · split <;> intro a
      · constructor <;> intros <;> first | rfl | assumption | exact .inl rfl | exact a _ ‹_› | simp_all [startFold]
      · exact .refl s
  · exact fun _ => .refl s

/-- A change of the stations alone. -/
theorem Starts.ofStations {t : State} (st : Vector Station 6) (p : Vector (Option SetRecord) 16)
    (ht : t = { s with track.stations := st, reg.pool := p })
    (station : ∀ n, (s.station n).state ≠ .ready → GoesOn (s.station n) (t.station n))
    (ready : ∀ n, s.awaitsDrop n = false → GoesOn (s.station n) (t.station n))
    (awaits : ∀ n, s.awaitsDrop n = false → t.awaitsDrop n = false) : Starts s t := by
  subst ht
  constructor <;> intros <;> first | rfl | assumption | exact station _ ‹_› | exact ready _ ‹_› | exact awaits _ ‹_› | simp_all

theorem refillAct_starts (n : StationId) : Starts s (refillAct n s) := by
  have a := fun n' => (refillAct_settles s n).awaitsDrop n'
  have g : ∀ m, GoesOn (s.station m) ((refillAct n s).station m) := by
    intro m
    rw [refillAct_station]; split
    · rename_i e; subst e
      unfold refillAct; simp only; split
      · rename_i k hk; split
        · right; exact ⟨k, s.timer s.plant.stations[m].refillTimeout, hk, by simp⟩
        · left; rfl
      · left; rfl
    · left; rfl
  have e : ∃ st, refillAct n s = { s with track.stations := st } := by
    unfold refillAct; simp only; split
    · split
      · exact ⟨_, rfl⟩
      · exact ⟨_, rfl⟩
    · exact ⟨_, rfl⟩
  obtain ⟨st, e⟩ := e
  exact .ofStations st s.reg.pool (e.trans rfl) (fun m _ => g m) (fun m _ => g m) a

theorem dropAct_starts (n : StationId) : Starts s (dropAct n s).1 := by
  have a := fun n' => (dropAct_settles s n).awaitsDrop n'
  have e : ∃ st p, (dropAct n s).1 = { s with track.stations := st, reg.pool := p } := by
    unfold dropAct
    have k : ∀ i : Option Slot, ∃ st p, addFault? .stationOff i s = { s with track.stations := st, reg.pool := p } := by
      intro i; cases i <;> exact ⟨_, _, rfl⟩
    split
    · simp only; split <;> first | exact ⟨_, _, rfl⟩ | exact k _ | (split <;> first | exact ⟨_, _, rfl⟩ | exact k _)
    · exact ⟨_, _, rfl⟩
  obtain ⟨st, p, e⟩ := e
  refine .ofStations st p e (fun m hm => ?_) (fun m hm => ?_) a
  · rcases dropAct_station n m s with e | ⟨rfl, h1, -, -, -⟩
    · exact .inl e
    · exact absurd h1 hm
  · rcases dropAct_station n m s with e | ⟨rfl, -, -, h2, -⟩
    · exact .inl e
    · rw [hm] at h2; cases h2

theorem insertAct_starts (h : s.Calm) : Starts s (insertAct s).1 := by
  have a := fun n => (insertAct_settles s).awaitsDrop n
  revert a
  unfold insertAct; split
  · rename_i hi
    simp only [Bool.and_eq_true] at hi
    split
    · intro a; constructor <;> intros <;> first | rfl | assumption | exact .inl rfl | exact a _ ‹_› | simp_all
    · exact fun _ => .refl s
    · rename_i e; exact absurd e h.1
  · exact fun _ => .refl s

theorem envelopeAct_starts : Starts s (envelopeAct s) := by
  have a := fun n => (envelopeAct_settles s).awaitsDrop n
  revert a
  unfold envelopeAct; split
  · rename_i hi
    simp only [Bool.and_eq_true] at hi
    intro a; constructor <;> intros <;> first | rfl | assumption | exact .inl rfl | exact a _ ‹_› | simp_all
  · exact fun _ => .refl s

theorem scanAct_starts : Starts s (scanAct s) := by
  have a := fun n => (scanAct_settles s).awaitsDrop n
  revert a
  unfold scanAct; split
  · rename_i hi
    simp only [Bool.and_eq_true] at hi
    intro a; constructor <;> intros <;> first | rfl | assumption | exact .inl rfl | exact a _ ‹_› | simp_all
  · exact fun _ => .refl s

theorem weighAct_starts : Starts s (weighAct s) := by
  have a := fun n => (weighAct_settles s).awaitsDrop n
  revert a
  unfold weighAct; split
  · rename_i hi
    simp only [Bool.and_eq_true] at hi
    intro a; constructor <;> intros <;> first | rfl | assumption | exact .inl rfl | exact a _ ‹_› | simp_all
  · exact fun _ => .refl s

/-- A change of the pool, the bins, the manifest, the link and the assignment's marks. -/
theorem Starts.ofAssignment {t : State} (p : Vector (Option SetRecord) 16) (b : Presort) (m : Postage) (l : Link)
    (gate : GateSide) (due reported : Bool)
    (ht : t = { s with
      reg.pool := p, presort := b, postage := m, link := l, track.lateGate := gate, track.assignDue := due
      track.sortReported := reported })
    (awaits : ∀ n, s.awaitsDrop n = false → t.awaitsDrop n = false) : Starts s t := by
  subst ht
  constructor <;> intros <;> first | rfl | assumption | exact .inl rfl | exact awaits _ ‹_› | simp_all

/-- What a close of a tray writes. -/
theorem closeBin_shape (b : BinId) (c : CloseCause) (s : State) :
    ∃ x m l, closeBin b c s = { s with presort := x, postage := m, link := l } := by
  unfold closeBin; split <;> exact ⟨_, _, _, rfl⟩

theorem openTray_shape (b : BinId) (g p : Nat) (s : State) :
    ∃ x l, openTray b g p s = { s with presort := x, link := l } := by
  unfold openTray; split <;> exact ⟨_, _, rfl⟩

theorem joinTray_shape (b : BinId) (p w k : Nat) (s : State) :
    ∃ x m l, joinTray b p w k s = { s with presort := x, postage := m, link := l } := by
  unfold joinTray; split
  · simp only; split
    · obtain ⟨x, m, l, e⟩ := closeBin_shape b ‹_› (putBin b { (s.bin b) with
        state := .open (Tray.join ‹_› p w k), onWay := (s.bin b).onWay + 1 } s)
      exact ⟨x, m, l, e.trans rfl⟩
    · exact ⟨_, _, _, rfl⟩
  · exact ⟨_, _, _, rfl⟩

theorem assignBin_shape (i : Slot) (r : SetRecord) (s : State) :
    ∃ p x m l g, (assignBin i r s).1 =
      { s with reg.pool := p, presort := x, postage := m, link := l, track.lateGate := g } := by
  unfold assignBin; simp only; split
  · rename_i b step _ _
    obtain ⟨x, l, e⟩ := openTray_shape b (lookupGroup s.postal.scheme (r.record.bind PieceRecord.key)) (r.piece.getD 0) s
    rw [e]
    generalize hf : (fun q : SetRecord => { q with
      bin := some b
      tray := (({ s with presort := x, link := l } : State).bin b).tray.map Tray.number
      group := some (lookupGroup s.postal.scheme (r.record.bind PieceRecord.key)), step := some step }) = f
    obtain ⟨x', m', l', e'⟩ := joinTray_shape b (r.piece.getD 0) r.postageWeight step
      { s with reg.pool := (s.modSet i f).reg.pool, presort := x, link := l, track.lateGate := .sort }
    exact ⟨(s.modSet i f).reg.pool, x', m', l', .sort, by subst hf; exact e'⟩
  · exact ⟨_, _, _, _, _, rfl⟩

theorem assignRequest_starts : Starts s (assignRequest s) := by
  have a := fun n => (assignRequest_settles s).awaitsDrop n
  have e : ∃ p x m l g d q, assignRequest s = { s with
      reg.pool := p, presort := x, postage := m, link := l, track.lateGate := g, track.assignDue := d
      track.sortReported := q } := by
    unfold assignRequest
    rcases s.carrier 11 with _ | i
    · exact ⟨_, _, _, _, _, _, _, rfl⟩
    · simp only
      rcases s.setAt i with _ | r
      · exact ⟨_, _, _, _, _, _, _, rfl⟩
      · simp only
        obtain ⟨p, x, m, l, g, e⟩ := assignBin_shape i r { s with track.assignDue := false }
        revert e
        generalize assignBin i r { s with track.assignDue := false } = q
        obtain ⟨s2, b⟩ := q
        rintro rfl
        cases b
        · simp only; split <;> exact ⟨_, _, _, _, _, _, _, rfl⟩
        · exact ⟨_, _, _, _, _, _, _, rfl⟩
  obtain ⟨p, x, m, l, g, d, q, e⟩ := e
  exact .ofAssignment p x m l g d q e a

theorem assignAct_starts : Starts s (assignAct s) := by
  unfold assignAct; split
  · exact assignRequest_starts
  · exact .refl s

theorem reportLateFull_starts : Starts s (reportLateFull s) := by
  unfold reportLateFull; split
  · constructor <;> intros <;> first | rfl | assumption | exact .inl rfl | simp_all [queueReport]
  · exact .refl s

theorem startIndex_starts : Starts s (startIndex s) := by
  unfold startIndex; split
  · rename_i hi
    simp only [State.indexWanted, Bool.and_eq_true] at hi
    split
    · constructor <;> intros <;> first | rfl | assumption | exact .inl rfl | simp_all
    · unfold reportExitBlocked; split
      · constructor <;> intros <;> first | rfl | assumption | exact .inl rfl | simp_all [queueReport]
      · exact .refl s
  · exact .refl s

theorem indexAct_starts : Starts s (indexAct s) := reportLateFull_starts.trans startIndex_starts

/-- A feed is requested only with no sheet in transit (R5). -/
theorem feedBlock_none (h : s.feedBlock = .none) : s.coll.transit = .none := by
  by_contra hne
  have : (s.coll.transit != Transit.none) = true := by simpa using hne
  simp only [State.feedBlock, this, if_true] at h
  split at h <;> simp at h <;> split at h <;> cases h

theorem feedAct_starts : Starts s (feedAct s) := by
  unfold feedAct; split
  · rename_i h
    have := feedBlock_none h
    constructor <;> intros <;> first | rfl | assumption | exact .inl rfl | simp_all
  · split
    · constructor <;> intros <;> first | rfl | assumption | exact .inl rfl | simp_all [queueReport]
    · exact .refl s
  · exact .refl s

theorem pauseAct_starts : Starts s (pauseAct s) := by
  unfold pauseAct; split
  · rename_i hp
    split <;> constructor <;> intros <;> first | rfl | assumption | exact .inl rfl | simp_all [enterState, queueReport]
  · exact .refl s

theorem runoutAct_starts : Starts s (runoutAct s) := by
  unfold runoutAct; split
  · rename_i hp
    simp only [Bool.and_eq_true, decide_eq_true_eq] at hp
    split <;> constructor <;> intros <;> first | rfl | assumption | exact .inl rfl | simp_all [enterState, enterSweep, queueReport]
  · exact .refl s

theorem refresh_starts : Starts s (refresh s) := by
  constructor <;> intros <;> first | rfl | assumption | exact .inl rfl | simp_all

theorem watchZones_starts : Starts s (watchZones s) := by
  constructor <;> intros <;> first | rfl | assumption | exact .inl rfl | simp_all

/-! ### All of them -/

theorem Starts.calm {t : State} (h : Starts s t) (pocket : s.Calm)
    (stations : ∀ n, (t.station n).state = .empty → (s.station n).state = .empty) : t.Calm :=
  ⟨by rw [h.pocket]; exact pocket.1, fun n e => pocket.2 n (stations n e)⟩

theorem foldl_refillAct_starts (l : List StationId) : Starts s (l.foldl (fun s n => refillAct n s) s) := by
  induction l generalizing s with
  | nil => exact .refl s
  | cons n l ih => exact (refillAct_starts n).trans ih

theorem foldl_dropActs_starts (h : s.Calm) (l : List StationId) : Starts s (l.foldl dropActs (s, [])).1 := by
  induction l generalizing s with
  | nil => exact .refl s
  | cons n l ih =>
    have e : dropActs (s, []) n = ((dropAct n s).1, []) := by simp [dropActs, dropAct_calm h n]
    rw [List.foldl_cons, e]; exact (dropAct_starts n).trans (ih (dropAct_keepsCalm h n))

theorem positionsAct_starts (h : s.Calm) : Starts s (positionsAct s) := by
  have h1 := foldl_refillAct_calm h allStations
  have h2 := (foldl_dropActs_calm h1 allStations).2
  rw [positionsAct_calm h]
  refine ((foldl_refillAct_starts allStations).trans (foldl_dropActs_starts h1 allStations)).trans ?_
  unfold headActs
  exact (insertAct_starts h2).trans (envelopeAct_starts.trans (scanAct_starts.trans (weighAct_starts.trans assignAct_starts)))

/-- The line's track, but for what the Track Controller's tests write, is left by the tests before them. -/
theorem folderAct_track : (folderAct (releaseAct (gateAct (purgeAct s)))).track.head = s.track.head ∧
    (folderAct (releaseAct (gateAct (purgeAct s)))).track.stations = s.track.stations := by
  have e1 : ∀ s : State, (folderAct s).track = s.track := by
    intro s; unfold folderAct; split
    · split
      · rfl
      · split <;> rfl
    · rfl
  have e2 : ∀ s : State, (releaseAct s).track = s.track := by
    intro s; unfold releaseAct reportEarlyFull; split
    · split
      · split
        · rfl
        · split <;> rfl
      · split <;> rfl
    · rfl
  have e3 : ∀ s : State, (gateAct s).track = s.track := by
    intro s; unfold gateAct; split
    · split <;> rfl
    · rfl
  have e4 : (purgeAct s).track.head = s.track.head ∧ (purgeAct s).track.stations = s.track.stations := by
    unfold purgeAct purgeDone; split
    · split <;> exact ⟨rfl, rfl⟩
    · exact ⟨rfl, rfl⟩
  rw [e1, e2, e3]; exact e4

theorem settleWork_starts (h : s.Calm) : Starts s (settleWork s) := by
  have c : (folderAct (releaseAct (gateAct (purgeAct s)))).Calm := by
    refine ⟨by rw [folderAct_track.1]; exact h.1, fun n => ?_⟩
    simp only [State.station, folderAct_track.2]; exact h.2 n
  unfold settleWork
  exact purgeAct_starts.trans (gateAct_starts.trans (releaseAct_starts.trans (folderAct_starts.trans
    ((positionsAct_starts c).trans (indexAct_starts.trans (feedAct_starts.trans
      (pauseAct_starts.trans runoutAct_starts)))))))

/-- While the blocks are calm and no job ends, `settle` only starts what is due. -/
theorem settle_starts (h : s.Calm) (q : s.NoSweep) : Starts s (settle s) := by
  rw [settle_eq, sweepAct_noSweep _ ((settleWork_settles s).noSweep q)]
  exact (settleWork_starts h).trans refresh_starts

theorem react_starts (h : s.Calm) (q : s.NoSweep) : Starts s (react s) :=
  watchZones_starts.trans (settle_starts (s := watchZones s) h q)

end Sys2Proof.Machine
end

