-- ==== Sys2Proof/Laws/Codec.lean ====
section
/-! SUPPORT. Numbers as bytes and back (00_scope, Byte order): the lemmas on which the formats' round trips rest. -/

namespace Sys2Proof.Machine

@[simp] theorem toBytes_length (w n : Nat) : (toBytes w n).length = w := by
  induction w generalizing n with
  | zero => rfl
  | succ w ih => simp [toBytes, ih]

@[simp] theorem absentBytes_length (w : Nat) : (absentBytes w).length = w := List.length_replicate

@[simp] theorem optBytes_length (w : Nat) (n : Option Nat) : (optBytes w n).length = w := by
  cases n <;> simp [optBytes]

@[simp] theorem boolByte_length (b : Bool) : (boolByte b).length = 1 := rfl

@[simp] theorem pieceBytes_length (p : Option Nat) : (pieceBytes p).length = 3 := toBytes_length _ _

theorem ofBytes_append_singleton (bs : List Byte) (b : Byte) : ofBytes (bs ++ [b]) = ofBytes bs * 256 + b.toNat := by
  simp [ofBytes]

/-- The bytes of a number spell it. -/
theorem ofBytes_toBytes {w n : Nat} (h : n < 256 ^ w) : ofBytes (toBytes w n) = n := by
  induction w generalizing n with
  | zero => simp at h; subst h; rfl
  | succ w ih =>
    have hq : n / 256 < 256 ^ w := Nat.div_lt_of_lt_mul (by rw [← Nat.pow_succ']; exact h)
    rw [toBytes, ofBytes_append_singleton, ih hq, BitVec.toNat_ofNat]
    omega

/-- An absent field spells the greatest number of its width. -/
theorem ofBytes_absentBytes (w : Nat) : ofBytes (absentBytes w) = 256 ^ w - 1 := by
  induction w with
  | zero => rfl
  | succ w ih =>
    have hp : 0 < 256 ^ w := Nat.pow_pos (by decide)
    have : absentBytes (w + 1) = absentBytes w ++ [0xFF] := by simp [absentBytes, List.replicate_succ']
    rw [this, ofBytes_append_singleton, ih, Nat.pow_succ]
    have : (0xFF : Byte).toNat = 255 := rfl
    omega

/-- A body's first field. -/
theorem fieldAt_zero {a b : List Byte} {w : Nat} (h : a.length = w) : fieldAt (a ++ b) 0 w = ofBytes a := by
  subst h; simp [fieldAt]

/-- A body's later fields. -/
theorem fieldAt_append {a b : List Byte} {o w : Nat} (h : a.length ≤ o) : fieldAt (a ++ b) o w = fieldAt b (o - a.length) w := by
  simp [fieldAt, List.drop_append, List.drop_eq_nil_of_le h]

/-- The field that stands in a body after its first `o` bytes. -/
theorem fieldAt_of_parts {a b c : List Byte} {o w n : Nat} (ha : a.length = o) (hb : b = toBytes w n) (hn : n < 256 ^ w) :
    fieldAt (a ++ (b ++ c)) o w = n := by
  rw [fieldAt_append (by omega), ha, Nat.sub_self, fieldAt_zero (by simp [hb]), hb, ofBytes_toBytes hn]

end Sys2Proof.Machine
end

