-- ==== Sys2Proof/Laws/Fold.lean ====
section
/-! SUPPORT. What the Fold Planner can write into a set record: stops on the plates' grid and in their range (R74, R75). -/

namespace Sys2Proof.Machine

theorem roundStop_mod (x : Int) : roundStop x % 5 = 0 := by unfold roundStop; dsimp only; split <;> omega

theorem roundFirstStop_mod (x c fit : Int) : roundFirstStop x c fit % 5 = 0 := by
  unfold roundFirstStop; dsimp only; split
  · omega
  · split <;> omega

/-- A rounded stop that has been clamped is one the plates can take. -/
theorem clampStop_ok {x : Int} (h : x % 5 = 0) : stopOk (clampStop x).toNat := by
  unfold clampStop stopOk Config.plateMin Config.plateMax; omega

/-- The stops of stage 5 are ones the plates can take. -/
theorem foldStops_ok (c : LineConfig) (p : FoldPlan) (n : Nat) (h : Int) (x : Int)
    (hx : (foldStops c p n h).stop1 = some x ∨ (foldStops c p n h).stop2 = some x) : stopOk x.toNat := by
  have k1 := clampStop_ok (roundFirstStop_mod (h + creep n c.sheetCaliper) (creep n c.sheetCaliper) (fitHi c))
  have k2 := clampStop_ok (roundStop_mod (h - p.nest + creep n c.sheetCaliper))
  unfold foldStops at hx
  cases ht : p.type <;> simp [ht] at hx
  · exact hx ▸ k1
  · rcases hx with hx | hx
    · exact hx ▸ k1
    · exact hx ▸ k2
  · rcases hx with hx | hx
    · exact hx ▸ k1
    · exact hx ▸ k2

/-- The stops of a computation are ones the plates can take. -/
theorem foldCompute_stops (c : LineConfig) (p : FoldPlan) (n ic iw : Nat) (b : Option Nat) (x : Nat)
    (h : (foldCompute c p n ic iw b).stop1 = some x ∨ (foldCompute c p n ic iw b).stop2 = some x) : stopOk x := by
  unfold foldCompute at h
  split at h
  · simp [foldEnded] at h
  · split at h
    · simp [foldEnded] at h
    · simp only [Option.map_eq_some_iff] at h
      rcases h with ⟨y, hy, rfl⟩ | ⟨y, hy, rfl⟩
      · exact foldStops_ok c p n _ y (.inl hy)
      · exact foldStops_ok c p n _ y (.inr hy)

/-- The stops that completion writes are ones the plates can take. -/
theorem completedRecord_stops (s : State) (r : SetRecord) (x : Nat)
    (h : (s.completedRecord r).stop1 = some x ∨ (s.completedRecord r).stop2 = some x) :
    stopOk x ∨ r.stop1 = some x ∨ r.stop2 = some x := by
  unfold State.completedRecord at h
  split at h
  · right; exact h
  · left
    simp only [State.planSet] at h
    split at h
    · exact foldCompute_stops _ _ _ _ _ _ x h
    · simp at h

end Sys2Proof.Machine
end

