-- ==== Sys2Proof/Laws/Receive.lean ====
section
/-! SUPPORT. The receive side of the link and the instrument ports (R185, R186, R195): what a complete frame is, and what bytes
that arrive keep. -/

namespace Sys2Proof.Machine

/-! ### Bytes one after another -/

@[simp] theorem gatherBytes_nil (held : List Byte) : gatherBytes held [] = (held, []) := rfl

theorem gatherBytes_cons (held : List Byte) (b : Byte) (rest : List Byte) :
    gatherBytes held (b :: rest) = ((gatherBytes (gatherByte held b).1 rest).1,
      (gatherByte held b).2 :: (gatherBytes (gatherByte held b).1 rest).2) := rfl

/-- Bytes that arrive in two runs are taken as one run. -/
theorem gatherBytes_append (held xs ys : List Byte) :
    gatherBytes held (xs ++ ys) = ((gatherBytes (gatherBytes held xs).1 ys).1,
      (gatherBytes held xs).2 ++ (gatherBytes (gatherBytes held xs).1 ys).2) := by
  induction xs generalizing held with
  | nil => simp
  | cons b xs ih => simp [gatherBytes_cons, ih]

@[simp] theorem gatherRecords_nil (port : InstrumentPort) (held : List Byte) : gatherRecords port held [] = (held, []) := rfl

theorem gatherRecords_cons (port : InstrumentPort) (held : List Byte) (b : Byte) (rest : List Byte) :
    gatherRecords port held (b :: rest) = ((gatherRecords port (gatherRecordByte port held b).1 rest).1,
      (gatherRecordByte port held b).2 :: (gatherRecords port (gatherRecordByte port held b).1 rest).2) := rfl

theorem gatherRecords_append (port : InstrumentPort) (held xs ys : List Byte) :
    gatherRecords port held (xs ++ ys) = ((gatherRecords port (gatherRecords port held xs).1 ys).1,
      (gatherRecords port held xs).2 ++ (gatherRecords port (gatherRecords port held xs).1 ys).2) := by
  induction xs generalizing held with
  | nil => simp
  | cons b xs ih => simp [gatherRecords_cons, ih]

@[simp] theorem Receive.bytes_ofBytes (bs : List Byte) : (Receive.ofBytes bs).bytes = bs := by cases bs <;> rfl

@[simp] theorem Ports.bytes_put (p : Ports) (port : InstrumentPort) (bs : List Byte) : (p.put port bs).bytes port = bs := by
  cases port <;> rfl

/-! ### A complete frame -/

/-- R187: a request row is the complete frame of its TYPE, TAG and BODY. -/
theorem exec_request {c : Instr} {type tag : Byte} {body : List Byte} (h : requestOf c = some (type, tag, body)) (s : State) :
    exec c s = .next (takeComplete tag type body s) := by
  cases c <;> simp only [requestOf, reduceCtorEq, Option.some.injEq, Prod.mk.injEq] at h
  all_goals (obtain ⟨rfl, rfl, rfl⟩ := h; rfl)

/-- R187: a frame of a TYPE that no request has. -/
theorem takeComplete_unknown {type : Byte} (h : isRequestType type = false) (tag : Byte) (body : List Byte) (s : State) :
    takeComplete tag type body s = takeUnknown tag type s := by
  revert h
  unfold takeComplete
  split <;> rename_i ht
  all_goals first
    | (intro; rfl)
    | (intro h; rw [show type = BitVec.ofNat 8 type.toNat by simp, ht] at h; exact absurd h (by decide))

/-- R187: every complete frame is a request row's, or is of a TYPE that no request has. -/
theorem takeComplete_cases (tag type : Byte) (body : List Byte) (s : State) :
    (∃ c, requestOf c = some (type, tag, body) ∧ exec c s = .next (takeComplete tag type body s)) ∨
      takeComplete tag type body s = takeUnknown tag type s := by
  by_cases hu : isRequestType type = false
  · exact .inr (takeComplete_unknown hu tag body s)
  · left
    suffices ∃ c, requestOf c = some (type, tag, body) by
      obtain ⟨c, hc⟩ := this; exact ⟨c, hc, exec_request hc s⟩
    have : type ∈ [0x01#8, 0x02#8, 0x03#8, 0x10#8, 0x11#8, 0x12#8, 0x13#8, 0x14#8, 0x20#8, 0x21#8, 0x22#8, 0x23#8, 0x24#8, 0x25#8,
        0x26#8, 0x27#8, 0x28#8, 0x30#8, 0x31#8, 0x32#8, 0x33#8, 0x34#8, 0x35#8, 0x36#8, 0x3F#8] := by
      revert type; decide +kernel
    simp only [List.mem_cons, List.not_mem_nil, or_false] at this
    rcases this with h | h | h | h | h | h | h | h | h | h | h | h | h | h | h | h | h | h | h | h | h | h | h | h | h <;> subst h
    exacts [⟨.identify tag body, rfl⟩, ⟨.status tag body, rfl⟩, ⟨.poll tag body, rfl⟩, ⟨.configure tag body, rfl⟩,
      ⟨.writeTable tag body, rfl⟩, ⟨.readTable tag body, rfl⟩, ⟨.setLock tag body, rfl⟩, ⟨.setRangeFilter tag body, rfl⟩,
      ⟨.openJob tag body, rfl⟩, ⟨.loadPieces tag body, rfl⟩, ⟨.startLine tag body, rfl⟩, ⟨.pause tag body, rfl⟩,
      ⟨.resume tag body, rfl⟩, ⟨.stopLine tag body, rfl⟩, ⟨.endJob tag body, rfl⟩, ⟨.abortJob tag body, rfl⟩,
      ⟨.recover tag body, rfl⟩, ⟨.stationControlEnable tag body, rfl⟩, ⟨.closeTray tag body, rfl⟩, ⟨.voidPiece tag body, rfl⟩,
      ⟨.releaseStray tag body, rfl⟩, ⟨.readDivertList tag body, rfl⟩, ⟨.fetchManifestNext tag body, rfl⟩,
      ⟨.queryPiece tag body, rfl⟩, ⟨.restart tag body, rfl⟩]

/-! ### What bytes keep -/

/-- What reports, complete frames and the receive side's own bytes keep, bytes that arrive keep. -/
theorem receiveBytes_keeps {P : State → Prop} (receive : ∀ s r, P s → P { s with link.receive := r })
    (report : ∀ s r, P s → P (queueReport r s)) (complete : ∀ s tag type body, P s → P (takeComplete tag type body s))
    (bytes : List Byte) {s : State} (h : P s) : P (receiveBytes bytes s) := by
  unfold receiveBytes
  generalize (gatherBytes s.link.receive.bytes bytes).2 = vs
  have h0 := receive s (.ofBytes (gatherBytes s.link.receive.bytes bytes).1) h
  revert h0
  generalize { s with link.receive := .ofBytes (gatherBytes s.link.receive.bytes bytes).1 } = t
  intro h0
  induction vs generalizing t with
  | nil => exact h0
  | cons v vs ih =>
    refine ih _ ?_
    cases v with
    | incomplete => exact h0
    | badLength => exact report _ _ h0
    | badCrc => exact report _ _ h0
    | complete => exact complete _ _ _ _ h0

/-- What reports and the receive side's own bytes keep, a cut frame keeps. -/
theorem cutFrame_keeps {P : State → Prop} (receive : ∀ s r, P s → P { s with link.receive := r })
    (report : ∀ s r, P s → P (queueReport r s)) (cause : LinkErrorCause) {s : State} (h : P s) : P (cutFrame cause s) := by
  unfold cutFrame
  split
  · exact h
  · exact report _ _ (receive _ _ h)

/-- R195: a record that passes is its row, handed to its owning block. -/
theorem exec_recordCommand (e : InstrumentEvent) (s : State) : exec (recordCommand e) s = .next (takeRecord s (.event e)) := by
  cases e <;> rfl

/-- What the owning blocks' records and the ports' own bytes keep, bytes at a port keep. -/
theorem takePort_keeps {P : State → Prop} (ports : ∀ s p, P s → P { s with ports := p })
    (record : ∀ s t e, P s → exec (recordCommand e) s = .next t → P t) (port : InstrumentPort) (bytes : List Byte) {s : State}
    (h : P s) : P (takePort port bytes s) := by
  unfold takePort
  generalize (gatherRecords port (s.ports.bytes port) bytes).2 = vs
  generalize hp : s.ports.put port (gatherRecords port (s.ports.bytes port) bytes).1 = p
  have h0 := ports s p h
  revert h0
  generalize { s with ports := p } = t
  intro h0
  induction vs generalizing t with
  | nil => exact h0
  | cons v vs ih =>
    refine ih _ ?_
    cases v with
    | incomplete => exact h0
    | faulty => exact h0
    | event e => exact record _ _ e h0 (exec_recordCommand e t)

end Sys2Proof.Machine
end

