-- ==== Sys2Proof/Laws/Reports.lean ====
section
/-! SUPPORT. The report queue (R189, R190): what queueing one report does, and that it keeps the queue's invariant. -/

namespace Sys2Proof.Machine

@[simp] theorem sameReport_self (r : Report) : sameReport r r = true := by simp [sameReport]

/-- What queueing a report does: the newest entry is counted once more, a new entry joins, or the report is lost. -/
theorem pushReport_cases (q : List ReportEntry) (o : Bool) (now : LineTime) (r : Report) :
    (∃ front e, q = front ++ [e] ∧ sameReport e.report r = true ∧
      pushReport q o now r = (front ++ [{ e with repeats := min (e.repeats + 1) 255 }], o)) ∨
    ((∀ e, q.getLast? = some e → sameReport e.report r = false) ∧
      ((q = [] ∨ q.length < Config.reportCapacity) ∧ pushReport q o now r = (q ++ [⟨r, 1, now⟩], o) ∨
        (q ≠ [] ∧ Config.reportCapacity ≤ q.length) ∧ pushReport q o now r = (q, true))) := by
  unfold pushReport
  rcases List.eq_nil_or_concat q with rfl | ⟨front, e, rfl⟩
  · right; simp
  · simp only [List.concat_eq_append, List.getLast?_append, List.getLast?_singleton, Option.some_or, List.dropLast_concat]
    by_cases he : sameReport e.report r = true
    · left; exact ⟨front, e, rfl, he, by simp [he]⟩
    · right
      refine ⟨fun e' h => by cases h; simpa using he, ?_⟩
      by_cases hl : (front ++ [e]).length < Config.reportCapacity
      · left; exact ⟨.inr hl, by rw [if_neg he, if_pos hl]⟩
      · right; exact ⟨⟨by simp, by omega⟩, by rw [if_neg he, if_neg hl]⟩

theorem distinctReports_cons (a : ReportEntry) (q : List ReportEntry) :
    distinctReports (a :: q) = true ↔ (∀ b, q.head? = some b → sameReport a.report b.report = false) ∧ distinctReports q = true := by
  cases q <;> simp [distinctReports]

/-- A queue without like neighbours stays so when an entry joins that is unlike its newest. -/
theorem distinctReports_append (q : List ReportEntry) (e : ReportEntry) :
    distinctReports (q ++ [e]) = true ↔
      distinctReports q = true ∧ ∀ b, q.getLast? = some b → sameReport b.report e.report = false := by
  induction q with
  | nil => simp [distinctReports]
  | cons a q ih =>
    rw [List.cons_append, distinctReports_cons, ih, distinctReports_cons]
    cases q with
    | nil => simp [distinctReports]
    | cons b q => simp [List.getLast?_cons_cons]; tauto

theorem distinctReports_tail {a : ReportEntry} {q : List ReportEntry} (h : distinctReports (a :: q) = true) :
    distinctReports q = true := ((distinctReports_cons a q).1 h).2

theorem distinctReports_drop (n : Nat) {q : List ReportEntry} (h : distinctReports q = true) :
    distinctReports (q.drop n) = true := by
  induction n generalizing q with
  | zero => simpa using h
  | succ n ih => cases q with
    | nil => simpa using h
    | cons a q => simpa using ih (distinctReports_tail h)

/-- The invariant of a report queue, of its list alone. -/
def ReportListOk (q : List ReportEntry) : Prop :=
  q.length ≤ Config.reportCapacity ∧ distinctReports q = true ∧ ∀ e ∈ q, 1 ≤ e.repeats ∧ e.repeats ≤ 255

/-- Queueing a report keeps the invariant of the report queue. -/
theorem pushReport_ok {q : List ReportEntry} (o : Bool) (now : LineTime) (r : Report) (h : ReportListOk q) :
    ReportListOk (pushReport q o now r).1 := by
  obtain ⟨hl, hd, hr⟩ := h
  rcases pushReport_cases q o now r with ⟨front, e, rfl, -, he⟩ | ⟨hne, ⟨hc, he⟩ | ⟨-, he⟩⟩
  · rw [he]
    refine ⟨by simpa using hl, (distinctReports_append front _).2 ((distinctReports_append front e).1 hd), ?_⟩
    intro x hx
    rcases List.mem_append.1 hx with hx | hx
    · exact hr x (List.mem_append_left _ hx)
    · rw [List.mem_singleton.1 hx]; dsimp only; omega
  · rw [he]
    refine ⟨?_, (distinctReports_append _ _).2 ⟨hd, hne⟩, ?_⟩
    · rcases hc with rfl | hc
      · simp [Config.reportCapacity]
      · simpa using hc
    · intro x hx
      rcases List.mem_append.1 hx with hx | hx
      · exact hr x hx
      · rw [List.mem_singleton.1 hx]; simp
  · rw [he]; exact ⟨hl, hd, hr⟩

/-- A block that queues a report keeps the invariant of the report queue. -/
theorem queueReport_reportsOk (r : Report) {s : State} (h : s.ReportsOk) : (queueReport r s).ReportsOk :=
  pushReport_ok _ _ r h

theorem reset_reportsOk (cause : ResetCause) (inp : Inputs) (p : Plant) (q : Postal) (l : List Instr) :
    (State.afterReset cause inp p q l).ReportsOk := by
  refine ⟨Nat.le_of_ble_eq_true rfl, rfl, ?_⟩
  intro e he
  simp only [State.afterReset, Link.reset, List.mem_singleton] at he
  subst he; exact ⟨Nat.le_refl 1, Nat.le_of_ble_eq_true rfl⟩

end Sys2Proof.Machine
end

