-- ==== Sys2Proof/Laws/Window.lean ====
section
/-! SUPPORT. The completion window (R34 to R36): reading after writing, its one form, and what an advance of the base
leaves. -/

namespace Sys2Proof.Machine

/-- The piece numbers that a window lists all lie above `p`. -/
def windowAbove (p : Nat) (w : List (Nat × PieceState)) : Prop := ∀ x ∈ w, p < x.1

theorem windowWf_cons (p : Nat) (st : PieceState) (w : List (Nat × PieceState)) :
    windowWf ((p, st) :: w) = true ↔ st ≠ .free ∧ windowAbove p w ∧ windowWf w = true := by
  induction w generalizing p st with
  | nil => simp [windowWf, windowAbove]
  | cons x w ih =>
    obtain ⟨q, sq⟩ := x
    simp only [windowWf, Bool.and_eq_true, bne_iff_ne, decide_eq_true_eq]
    constructor
    · rintro ⟨⟨h1, h2⟩, h3⟩
      refine ⟨h1, ?_, h3⟩
      intro y hy
      rcases List.mem_cons.1 hy with rfl | hy
      · exact h2
      · exact Nat.lt_trans h2 (((ih q sq).1 h3).2.1 y hy)
    · rintro ⟨h1, h2, h3⟩
      exact ⟨⟨h1, h2 (q, sq) (by simp)⟩, h3⟩

theorem windowGet_above {p q : Nat} {w : List (Nat × PieceState)} (h : windowAbove q w) (hp : p ≤ q) :
    windowGet w p = .free := by
  cases w with
  | nil => rfl
  | cons x w =>
    obtain ⟨k, sk⟩ := x
    have : q < k := h (k, sk) (by simp)
    unfold windowGet; rw [if_neg (by omega), if_pos (by omega)]

/-- Reading a window after a write. -/
theorem windowGet_windowSet {w : List (Nat × PieceState)} (h : windowWf w = true) (p q : Nat) (st : PieceState) :
    windowGet (windowSet w p st) q = if q = p then st else windowGet w q := by
  induction w with
  | nil =>
    unfold windowSet
    by_cases hs : st = .free
    · simp [hs, windowGet]
    · by_cases hq : q = p
      · subst hq; simp [hs, windowGet]
      · simp [hs, windowGet, hq, Ne.symm hq]
  | cons x w ih =>
    obtain ⟨k, sk⟩ := x
    obtain ⟨h1, h2, h3⟩ := (windowWf_cons k sk w).1 h
    specialize ih h3
    unfold windowSet
    by_cases hk : k = p
    · subst hk
      by_cases hs : st = .free
      · subst hs; simp only [if_true]
        by_cases hq : q = k
        · subst hq; simpa using windowGet_above h2 (Nat.le_refl q)
        · simp only [hq, if_false, windowGet, if_neg (Ne.symm hq)]
          split
          · rename_i hlt; exact windowGet_above h2 (by omega)
          · rfl
      · by_cases hq : q = k
        · subst hq; simp [hs, windowGet]
        · simp [hs, windowGet, hq, Ne.symm hq]
    · by_cases hlt : p < k
      · by_cases hs : st = .free
        · subst hs; simp only [hk, hlt, if_true, if_false]
          by_cases hq : q = p
          · subst hq; simp [windowGet, hk, hlt]
          · simp [hq]
        · simp only [hk, hlt, hs, if_true, if_false]
          by_cases hq : q = p
          · subst hq; simp [windowGet]
          · simp only [hq, if_false]
            conv_lhs => unfold windowGet
            rw [if_neg (Ne.symm hq)]
            split
            · rename_i hqp; simp [windowGet, show k ≠ q by omega, show q < k by omega]
            · rfl
      · simp only [hk, hlt, if_false]
        by_cases hq : q = p
        · subst hq
          simp only [if_true] at ih ⊢
          unfold windowGet; rw [if_neg hk, if_neg hlt, ih]
        · simp only [hq, if_false] at ih ⊢
          unfold windowGet; rw [ih]

theorem windowSet_above {w : List (Nat × PieceState)} {p q : Nat} {st : PieceState} (h : windowAbove q w) (hp : q < p) :
    windowAbove q (windowSet w p st) := by
  induction w with
  | nil => unfold windowSet; split <;> simp [windowAbove, hp]
  | cons x w ih =>
    obtain ⟨k, sk⟩ := x
    have hk : q < k := h (k, sk) (by simp)
    have hw : windowAbove q w := fun y hy => h y (List.mem_cons_of_mem _ hy)
    unfold windowSet
    split
    · split
      · exact hw
      · intro y hy; rcases List.mem_cons.1 hy with rfl | hy
        · exact hp
        · exact hw y hy
    · split
      · split
        · exact h
        · intro y hy; rcases List.mem_cons.1 hy with rfl | hy
          · exact hp
          · exact h y hy
      · intro y hy; rcases List.mem_cons.1 hy with rfl | hy
        · exact hk
        · exact ih hw y hy

/-- A write keeps the window's one form. -/
theorem windowWf_windowSet {w : List (Nat × PieceState)} (h : windowWf w = true) (p : Nat) (st : PieceState) :
    windowWf (windowSet w p st) = true := by
  induction w with
  | nil => unfold windowSet; split <;> simp_all [windowWf]
  | cons x w ih =>
    obtain ⟨k, sk⟩ := x
    obtain ⟨h1, h2, h3⟩ := (windowWf_cons k sk w).1 h
    unfold windowSet
    split
    · split
      · exact h3
      · rename_i e hs; subst e; exact (windowWf_cons _ _ _).2 ⟨hs, h2, h3⟩
    · split
      · split
        · exact h
        · rename_i hlt hs
          refine (windowWf_cons _ _ _).2 ⟨hs, ?_, h⟩
          intro y hy; rcases List.mem_cons.1 hy with rfl | hy
          · exact hlt
          · exact Nat.lt_trans hlt (h2 y hy)
      · rename_i hne hle
        exact (windowWf_cons _ _ _).2 ⟨h1, windowSet_above h2 (by omega), ih h3⟩

/-- What an advance leaves: a form kept, every number's state but those settled and passed, a base that is not settled. -/
theorem advanceBase_spec {base : Nat} {w : List (Nat × PieceState)} (h : windowWf w = true) (hb : ∀ x ∈ w, base ≤ x.1) :
    base ≤ (advanceBase base w).1 ∧ windowWf (advanceBase base w).2 = true ∧
      (∀ x ∈ (advanceBase base w).2, (advanceBase base w).1 ≤ x.1) ∧
      (∀ p, windowGet (advanceBase base w).2 p = if p < (advanceBase base w).1 then .free else windowGet w p) ∧
      (∀ p, base ≤ p → p < (advanceBase base w).1 → (windowGet w p).settled = true) ∧
      ((windowGet (advanceBase base w).2 (advanceBase base w).1).settled = false ∨
        Config.maxPiece ≤ (advanceBase base w).1) := by
  induction w generalizing base with
  | nil => exact ⟨Nat.le_refl _, rfl, by simp [advanceBase], fun p => (ite_self _).symm,
      by intro p h1 h2; exact absurd h2 (by dsimp only [advanceBase]; omega), .inl rfl⟩
  | cons x w ih =>
    obtain ⟨q, st⟩ := x
    obtain ⟨h1, h2, h3⟩ := (windowWf_cons q st w).1 h
    unfold advanceBase
    split
    · rename_i hc
      simp only [Bool.and_eq_true, decide_eq_true_eq] at hc
      obtain ⟨⟨rfl, hs⟩, hm⟩ := hc
      obtain ⟨a, b, c, d, e, f⟩ := ih (base := q + 1) h3 (fun y hy => h2 y hy)
      refine ⟨by omega, b, c, ?_, ?_, f⟩
      · intro p; rw [d p]; split
        · rfl
        · simp only [windowGet]; rw [if_neg (by omega), if_neg (by omega)]
      · intro p hp hlt
        by_cases hq : p = q
        · subst hq; simpa [windowGet] using hs
        · simp only [windowGet]; rw [if_neg (Ne.symm hq), if_neg (by omega)]; exact e p (by omega) hlt
    · rename_i hc
      refine ⟨Nat.le_refl _, h, hb, ?_, by intro p h1 h2; exact absurd h2 (by dsimp only; omega), ?_⟩
      · intro p; dsimp only; split
        · rename_i hp
          have := hb (q, st) (by simp); dsimp only at this
          simp only [windowGet]; rw [if_neg (by omega), if_pos (by omega)]
        · rfl
      · dsimp only
        by_cases hq : q = base
        · subst hq
          by_cases hm : q < Config.maxPiece
          · left; simp [hm] at hc; simpa [windowGet] using hc
          · right; omega
        · left
          have := hb (q, st) (by simp); dsimp only at this
          simp only [windowGet]; rw [if_neg hq, if_pos (by omega)]; rfl

end Sys2Proof.Machine
end

