-- ==== Sys2Proof/Tests/Slice0.lean ====
section
/-! SUPPORT. Our own tests: a smoke test for each check of WellFormed, the handbook's worked examples, one step of each
family of commands, and for each statement that has hypotheses a state and operands that meet them. The expected values
come from the handbook, as the comments say. -/

namespace Sys2Proof.Tests

open Sys2Proof.Machine

-- One proof after another: side by side they take more threads than the check's memory limit leaves room for.
set_option Elab.async false

/-! ### States built for the tests -/

/-- The configuration of the worked case 1 of chapter 4, the fields it does not name at their defaults. -/
def cfg : LineConfig :=
  configOfValues [2970, 2100, 80, 100, 1140, 40, 450, 900, 520, 5000, 0, 100, 20, 31, 8, 4, 32, 3, 2000, 1000, 1500, 3000,
    1000, 800, 1000, 300, 800, 2000, 500, 500, 500, 500, 4, 50, 16, 4, 50, 16, 4, 50, 16, 10, 3, 300, 1500000, 50, 50]

/-- The LETTER plan of the worked case 1 of chapter 4. -/
def plan : FoldPlan :=
  { type := .letter, offset := 450, block := 300, nest := 20, panelMin := 300, capacity := 8, policy := .divert }

/-- READY, with the configuration, plan 0 and three weight steps. -/
def ready : State :=
  { State.reset with
    plant.config := some cfg, plant.plans := State.reset.plant.plans.set 0 (some plan)
    postal.steps := some [2000, 3500, 5000], line.state := .ready, link.reports := [] }

/-- JOB_IDLE, with job 7 open from piece 1 in SEQUENCE. -/
def idle : State :=
  { ready with
    line.state := .jobIdle, reg.job := some ⟨7, 1, .sequence, 31, 3⟩, reg.base := 1, coll.state := .setStart, presort.nextTray := some 1 }

/-- RUNNING, with the pocket STAGED and every station READY. -/
def running : State :=
  { idle with
    line.state := .running, track.head.pocket := .staged
    track.stations := .replicate 6 { Station.reset with state := .ready } }

/-- A piece record of two sheets. -/
def record (p : Nat) : PieceRecord :=
  { piece := p, sheets := 2, insertClass := 0, plan := 0, key := some 12345, pull := false, reprint := false }

/-- A matched set of a piece, one sheet received. -/
def pieceSet (p : Nat) : SetRecord :=
  { blankSet with piece := some p, record := some (record p), governing := 2, received := 1, lastIndex := some 1, lastWrap := some 0 }

/-- A state with a set in slot 0, its piece 5 HELD. -/
def withSet (r : SetRecord) (s : State) : State := { s.putSet 0 (some r) with reg.window := [(5, .held)] }

/-- A mark of job 7 and piece 5. -/
def mark (index wrap : Nat) : Mark := ⟨7, 5, index, 2, wrap⟩

/-- RUNNING with record 5 queued and a feed outstanding whose tag is fixed, with the reads given. -/
def fed (reads : List Mark) : State :=
  { running with reg.queue := [record 5], reg.window := [(5, .held)], coll.transit := .feeding (some 3) reads ⟨0, 2000⟩ }

/-- The state a command answers with, and the state it was given where it answers none. -/
def out (c : Instr) (s : State) : State :=
  match exec c s with
  | .next t => t
  | _ => s

/-- The result code of the reply held. -/
def result (s : State) : Option Result := s.link.held.map fun h => h.reply.result

/-- The state a step answers with, and the state it was given where it answers none. -/
def outStep (s : State) : State :=
  match step s with
  | .next t => t
  | _ => s

/-- Whether a command answers a next state. -/
def answers (c : Instr) (s : State) : Bool :=
  match exec c s with
  | .next _ => true
  | _ => false

/-- A command that answers a next state answers the one that `out` gives. -/
theorem exec_out {c : Instr} {s : State} (h : answers c s = true) : exec c s = .next (out c s) := by
  unfold answers at h
  unfold out
  split at h
  · next t ht => rw [ht]
  · exact absurd h (by decide)

/-- Whether a step answers a next state. -/
def steps (s : State) : Bool :=
  match step s with
  | .next _ => true
  | _ => false

/-- A step that answers a next state answers the one that `outStep` gives. -/
theorem step_out {s : State} (h : steps s = true) : step s = .next (outStep s) := by
  unfold steps at h
  unfold outStep
  split at h
  · next t ht => rw [ht]
  · exact absurd h (by decide)

/-! ### Ill-formed commands are refused, one for each check -/

theorem test_wf_frameStart : WellFormed (.frameDiscarded [0xC4, 0x01]) = false := by decide

theorem test_wf_frameLength : WellFormed (.frameDiscarded (0xC3 :: List.replicate 246 0)) = false := by decide +kernel

theorem test_wf_gathering : WellFormed (.framingError [0x00]) = false ∧ WellFormed (.linkGapTimeout [0x00]) = false := by decide

theorem test_wf_body : WellFormed (.identify 0 (List.replicate 241 0)) = false := by decide +kernel

theorem test_wf_unknownType : WellFormed (.unknownType 0 0x36 []) = false ∧ WellFormed (.unknownType 0 0x37 []) = true := by
  decide

theorem test_wf_stationControl : WellFormed (.stationControlEnable 0 [1, 1]) = false ∧
    WellFormed (.stationControlDisable 0 [1, 0]) = false := by decide

theorem test_wf_fetchManifest : WellFormed (.fetchManifestNext 0 [1, 1]) = false ∧
    WellFormed (.fetchManifestRepeat 0 [0, 1]) = false := by decide

theorem test_wf_recordStart : WellFormed (.instrumentRecordDiscard .scale [0xA4]) = false ∧
    WellFormed (.instrumentGapTimeout .reader []) = false := by decide

theorem test_wf_bin : WellFormed (.sortBinClear 0) = false ∧ WellFormed (.binEntry 12) = false := by decide

theorem test_wf_sensor : WellFormed (.jamSensor 4 1 true) = false ∧ WellFormed (.jamSensor 0 0 true) = false ∧
    WellFormed (.jamTimerExpiry 0 5) = false := by decide

/-! ### The handbook's worked examples -/

/-- 11.6: the CRC over the nine characters "123456789" is 0x29B1. -/
theorem test_crc : crc16 [0x31, 0x32, 0x33, 0x34, 0x35, 0x36, 0x37, 0x38, 0x39] = 0x29B1 := by decide +kernel

/-- 4.12, worked case 1: three sheets with two inserts. -/
theorem test_fold_three : foldCompute cfg plan 3 370 490 (some 5000) =
    { heff := some 1057, stop1 := some 1060, stop2 := some 1040, marginal := false, caliper := some 1270, expected := some 2507
      faults := 0 } := by decide +kernel

/-- 4.12, worked case 1: eight sheets weigh 5002 cg, past the last bound. -/
theorem test_fold_eight : foldCompute cfg plan 8 370 490 (some 5000) =
    { heff := some 1054, stop1 := some 1065, stop2 := some 1045, marginal := false, caliper := some 2770, expected := some 5002
      faults := faultMask .overweight } := by decide +kernel

/-- 4.12, worked case 1: nine sheets are more than the plan folds. -/
theorem test_fold_nine : foldCompute cfg plan 9 370 490 (some 5000) = foldEnded .foldCapacity := by decide +kernel

/-- 4.13, worked case 2: with the window's bottom at 70.0 mm the packet is marginal. -/
theorem test_fold_marginal : foldCompute { cfg with windowBottom := 700 } plan 3 370 490 (some 5000) =
    { heff := some 1097, stop1 := some 1100, stop2 := some 1085, marginal := true, caliper := some 1270, expected := some 2507
      faults := faultMask .foldMarginal } := by decide +kernel

/-- R142, on bounds of 2000, 3500 and 5000 cg. -/
theorem test_stepOf : stepOf (some [2000, 3500, 5000]) 2000 = some 0 ∧ stepOf (some [2000, 3500, 5000]) 2001 = some 1 ∧
    stepOf (some [2000, 3500, 5000]) 5000 = some 2 ∧ stepOf (some [2000, 3500, 5000]) 5001 = none := by decide

/-- Chapter 8, the worked tray: 140 pieces of a DIRECT group, below the DIRECT minimum of 150, priced at the AREA rates. -/
theorem test_tray_area :
    let p : Postal := { Postal.powerOn with
      levels := Postal.powerOn.levels.set 3 .direct, minDirect := 150, minArea := 100
      rates := #v[.replicate 8 0, #v[412, 588, 0, 0, 0, 0, 0, 0], .replicate 8 0] }
    trayLevel p 3 140 = .area ∧ trayPostage p .area #v[100, 40, 0, 0, 0, 0, 0, 0] = 64720 := by decide +kernel

/-- 2.9, the second set start: with skip limit 2 and low mark 3, the mark of 5003 passes over 5002. -/
theorem test_match_passes :
    let s : State := { idle with
      plant.config := some { cfg with queueLow := 3 }, reg.job := some ⟨7, 5001, .sequence, 31, 2⟩, reg.base := 5001, reg.lowArmed := true
      reg.queue := [record 5002, record 5003, record 5004, record 5005]
      reg.window := [(5001, .held), (5002, .held), (5003, .held), (5004, .held), (5005, .held)] }
    (matchPiece 5003 s).1 = .matched (record 5003) ∧ (matchPiece 5003 s).2.reg.queue = [record 5004, record 5005] ∧
      (matchPiece 5003 s).2.reg.window = [(5001, .held), (5002, .missing), (5003, .held), (5004, .held), (5005, .held)] ∧
      (matchPiece 5003 s).2.link.reports.map ReportEntry.report = [.pieceMissing 5002 5003, .queueLow 2 5001] := by
  decide +kernel

/-- R50, R48: with U 4 and T 16 the fourth fault event trips, and the level returns to 0. -/
theorem test_monitor_trips :
    let f := monitorFault .read .unreadable none
    (f (f (f running))).mon.read = ⟨12, 0⟩ ∧ (f (f (f (f running)))).mon.read = ⟨0, 0⟩ ∧
      (f (f (f (f running)))).line.state = .faultStop := by decide +kernel

/-! ### One step of each family -/

/-- A step runs the command in front and leaves the rest waiting. -/
theorem test_step : outStep { State.reset with pending := [.identify 9 [], .feedRequest] } =
    out (.identify 9 []) { State.reset with pending := [.feedRequest] } := by decide +kernel

/-- R193: Identify gives the part code 0x4410 first. -/
theorem test_identify : (out (.identify 9 []) State.reset).link.held.map (fun h => h.reply.fields.take 3) =
    some [0x44, 0x10, 0x03] := by decide +kernel

/-- R154, R194: a return state of RUNOUT, the fourth that R154 lists, is coded 3. -/
theorem test_returnState : (out (.status 9 [0]) { running with line.state := .paused, line.returnState := some .runout }).link.held.map
    (fun h => h.reply.fields.take 3) = some [0, 7, 3] := by decide +kernel

/-- R156: the first Configure that is accepted moves STANDBY to READY. -/
theorem test_configure : (out (.configure 1 (configBytes (some cfg))) State.reset).line.state = .ready ∧
    (out (.configure 1 (configBytes (some cfg))) State.reset).plant.config = some cfg := by decide +kernel

/-- R185: a frame with a wrong CRC is reported with its TAG and TYPE. -/
theorem test_frameDiscarded : ((out (.frameDiscarded [0xC3, 0x02, 0x07, 0x01, 0x00, 0x00]) ready).link.reports.map
    ReportEntry.report) = [.linkError .crc (some 0x07) (some 0x01)] := by decide +kernel

/-- R185: after a LEN out of range the receive side hunts again from the next byte, where a new frame begins. -/
theorem test_frameFollows :
    (out (.frameDiscarded [0xC3, 0x01, 0xC3, 0x01]) ready).link.reports = [⟨.linkError .length none none, 2, 0⟩] ∧
      (out (.frameDiscarded [0xC3, 0x01, 0xC3, 0x04]) ready).link.receive = .gathering [0xC3, 0x04] := by decide +kernel

/-- R195: the port looks for 0xA5 again from the byte after a faulty one, and takes the record that begins there. -/
theorem test_recordFollows :
    out (.instrumentRecordDiscard .reader [0xA5, 0x99, 0xA5, 0x02, 0x03, 0xFB]) (fed [mark 1 7]) =
      out (.sheetEnd 3) (fed [mark 1 7]) ∧ out (.sheetEnd 3) (fed [mark 1 7]) ≠ fed [mark 1 7] := by
  decide +kernel

/-- R182, R188: ReadTable of an index that an existing table does not have carries the lock of the table's group. -/
theorem test_readTable_index : (out (.readTable 1 [0x08, 0x01]) ready).link.held.map (fun h => h.reply.fields) =
    some ([0x08, 0x01, 0xFF] ++ List.replicate 4 0xFF ++ [0x00, 0x00, 0x00]) := by decide +kernel

/-- R158: OpenJob opens job 7 at piece 1 with the configuration's skip limit in place of the default marker. -/
theorem test_openJob : (out (.openJob 1 [0, 7, 0, 0, 1, 0, 0xFF, 0xFF]) ready).line.state = .jobIdle ∧
    (out (.openJob 1 [0, 7, 0, 0, 1, 0, 0xFF, 0xFF]) ready).reg.job = some ⟨7, 1, .sequence, 31, 4⟩ := by decide +kernel

/-- R159: StartLine enters PURGE with the purge count's pitches. -/
theorem test_startLine : (out (.startLine 1 []) { idle with track.head.pocket := .staged }).line.state = .purge ∧
    (out (.startLine 1 []) { idle with track.head.pocket := .staged }).track.purgePitches = 3 := by decide +kernel

/-- R27: a record loaded joins the queue and its piece is HELD. -/
theorem test_loadPieces : (out (.loadPieces 1 (pieceRecordBytes (record 5))) idle).reg.queue = [record 5] ∧
    (out (.loadPieces 1 (pieceRecordBytes (record 5))) idle).reg.window = [(5, .held)] := by decide +kernel

/-- R5: a feed held for an empty piece queue alone is reported once, with base 1 and no set in flight. -/
theorem test_starved : (out .feedRequest running).link.reports.map ReportEntry.report = [.queueStarved 1 0] := by
  decide +kernel

/-- R5: with a record queued a feed goes out, with the feed timeout of 2000 ms. -/
theorem test_feed : (out .feedRequest { running with reg.queue := [record 5], reg.window := [(5, .held)] }).coll.transit =
    .feeding none [] ⟨0, 2000⟩ := by decide +kernel

/-- R117: the late divert bin's clear makes its count 0. -/
theorem test_lateBinClear : (out .lateBinClear { idle with track.lateCount := 7 }).track.lateCount = 0 := by decide +kernel

/-- R134: the clear of a SWAP bin with no piece on its way frees it. -/
theorem test_binClear : (out (.sortBinClear 11) { idle with
    presort.bins := idle.presort.bins.set 10 ⟨.swap, some 4, 0⟩ }).bin 10 = ⟨.free, some 4, 0⟩ := by decide +kernel

/-- R173, R174: the guard's opening in RUNNING takes the line to INTERLOCK, and its closing to FAULT_STOP. -/
theorem test_guard : (out .interlockOpen running).line.state = .interlock ∧
    (out .interlockClosed (out .interlockOpen running)).line.state = .faultStop := by decide +kernel

/-- R180: a POWER_LOCKED group stays as it is, and power-on opens it. -/
theorem test_lock : result (out (.setLock 1 [0, 0]) { ready with plant.mode := .powerLocked }) = some .locked ∧
    (out (.powerOn inputsAtReset) { ready with plant.mode := .powerLocked }).plant.mode = .open := by decide +kernel

/-! ### A state and operands for each statement that has hypotheses -/

/-- The request whose reply has not left. -/
def holding (restart : Bool) : Held := { tag := 1, type := 0x3F, reply := ⟨.ok, []⟩, restart }

/-- A queue of `n` reports, no two alike. -/
def reports (n : Nat) : List ReportEntry := (List.range n).map fun k => ⟨.queueLow k 1, 1, 0⟩

theorem witness_StepRunsFrontCommand : State.reset.pending = [] := by decide +kernel

theorem witness_EveryCommandCompletes : resets .feedRequest running = false := by decide +kernel

theorem witness_ResetsRestoreBlocks :
    { ready with link.held := some (holding true) }.link.held = some (holding true) ∧ (holding true).restart = true := by
  decide +kernel

theorem witness_RequestsHeldOrDiscarded :
    ready.link.held = none ∧ ready.jobOpen = false ∧ idle.link.held = none ∧ idle.jobOpen = true ∧
      { ready with link.held := some (holding false) }.link.held = some (holding false) ∧ (holding false).restart = false ∧
      requestOf (.restart 9 [1]) = some (0x3F, 9, [1]) ∧ bodyLengthOk 0x3F 1 = false ∧
      isRequestType 0x00 = false ∧ isRequestType 0x37 = false := by decide +kernel

theorem witness_DamagedInputDiscarded :
    ready.link.receive = .hunting ∧ (0x01 : Byte).toNat < 2 ∧ 242 < (0xF3 : Byte).toNat ∧ (0xC2 : Byte) ≠ 0xC3 ∧
      (List.replicate 240 (0 : Byte)).length ≤ 240 ∧ crc16 [0x02, 7, 1] ≠ (0 : Byte) ++ (0 : Byte) ∧
      requestOf (.restart 9 (List.replicate 240 1)) = some (0x3F, 9, List.replicate 240 1) ∧
      frameVerdict (0xC3 :: [0xF2, 7, 1]) = .incomplete ∧ frameVerdict (0xC3 :: []) = .incomplete ∧
      { ready with link.receive := .gathering [0xC3, 0x02, 7] }.link.receive = .gathering [0xC3, 0x02, 7] ∧
      ready.ports.bytes .scale = [] ∧ (0xA4 : Byte) ≠ 0xA5 ∧
      (InstrumentPort.scale, (0x22 : Byte)) ∉ [(InstrumentPort.reader, (0x01 : Byte)), (.reader, 0x02), (.scanner, 0x11), (.scale, 0x21)] ∧
      recordLength .reader 0x02 = some ([(7 : Byte), 0].length + 2) ∧ statusWrong .reader [0xA5, 0x02, 7, 0] = false ∧
      checkSumOk [0x02, 7, 0] = false ∧ parseInstrument .reader [0xA5, 0x02, 7, 0xF7] = some (.sheetEnd 7) ∧
      recordVerdict .reader (0xA5 :: [0x02, 7]) = .incomplete := by decide +kernel

theorem witness_ReadingRequestsAnswered :
    State.reset.link.held = none ∧ [25, 77, 20, 38, 50, 123, 45][(0x06 : Byte).toNat]? = some 45 ∧ 7 ≤ (0x07 : Byte).toNat ∧
      1 ≤ (0x08 : Byte).toNat ∧ (0x08 : Byte).toNat ≤ 8 ∧ (0x00 : Byte).toNat = 0 ∧ 8 < (0x09 : Byte).toNat := by decide +kernel

theorem witness_ReportsCoalesceOrJoin :
    let absent : State := { ready with link.reports := [⟨.linkError .gap none none, 1, 0⟩] }
    ({ ready with link.reports := reports 63 }.ReportsOk ∧ { ready with link.reports := reports 64 }.ReportsOk ∧ absent.ReportsOk) ∧
      (absent.link.reports = [] ++ [⟨.linkError .gap none none, 1, 0⟩] ∧
        reportKind (.linkError .gap none none) = reportKind (.linkError .gap (some 0xFF) (some 0xFF)) ∧
        reportBody (.linkError .gap none none) = reportBody (.linkError .gap (some 0xFF) (some 0xFF))) ∧
      (reports 63 = reports 62 ++ [⟨.queueLow 62 1, 1, 0⟩] ∧ reportBody (.queueLow 62 1) ≠ reportBody (.queueLow 63 1) ∧
        (reports 63).length < 64) ∧
      (reports 64).getLast? = some ⟨.queueLow 63 1, 1, 0⟩ ∧ reportBody (.queueLow 63 1) ≠ reportBody (.queueLow 62 1) ∧
      (reports 64).length = 64 := by
  unfold State.ReportsOk
  decide +kernel

theorem witness_ReportQueueKept :
    let s : State := { running with link.reports := reports 64, pending := [.feedRequest] }
    s.ReportsOk ∧ step s = .next (outStep s) ∧ outStep s ≠ s := by
  refine ⟨?_, ?_, ?_⟩
  · unfold State.ReportsOk; decide +kernel
  · exact step_out (by decide +kernel)
  · decide +kernel

/-- A configuration whose window band is empty. -/
def unordered : LineConfig := { cfg with windowTop := 900 }

theorem witness_ConfigureStoresOrRefuses :
    ready.link.held = none ∧ ready.jobOpen = false ∧ (configBytes (some cfg)).length = 85 ∧ ready.plantWritable = true ∧
      parseConfig (configBytes (some cfg)) = some (cfg, false) ∧ relationsHold ready.plant.plans cfg = true ∧
      idle.jobOpen = true ∧ { ready with plant.mode := .powerLocked }.plantWritable = false ∧
      parseConfig (List.replicate 85 0xFF) = none ∧
      parseConfig (configBytes (some unordered)) = some (unordered, false) ∧ relationsHold ready.plant.plans unordered = false ∧
      State.reset.line.state = .standby ∧ State.reset.plant.config = none ∧ ready.line.state = .ready ∧
      { ready with line.state := .standby }.line.state = .standby ∧
      { ready with line.state := .standby }.plant.config = some cfg := by decide +kernel

/-- A plan at the upper ends of its fields. -/
def edgePlan : FoldPlan := ⟨.letter, 1970, 1000, 100, 1000, 8, .accept⟩

/-- A station record at the ends of its fields. -/
def edgeStation : StationRecord := ⟨true, 5000, 5000, 50, 2000, .stop, ⟨1, 255, 2⟩⟩

/-- A job at the upper ends of its fields. -/
def edgeJob : Job := ⟨65535, 16777215, .lookup, 0, 16⟩

theorem witness_PlantEntriesStored :
    ready.link.held = none ∧ ready.line.state ≠ .interlock ∧ ready.plantWritable = true ∧ ready.plant.config = some cfg ∧
      edgePlan.offset < 65536 ∧ 50 ≤ edgePlan.block ∧ edgePlan.block ≤ 1000 ∧ edgePlan.offset + edgePlan.block ≤ cfg.sheetLength ∧
      edgePlan.nest ≤ 100 ∧ 200 ≤ edgePlan.panelMin ∧ edgePlan.panelMin ≤ 1000 ∧ 1 ≤ edgePlan.capacity ∧
      edgePlan.capacity ≤ capacityLimit edgePlan.type ∧
      (⟨true, 5000, 5000, 2000, 50, .disable, ⟨15, 1, 2⟩⟩ : StationRecord) =
        { enabled := (1 : Fin 2) = 1, weight := min 5000 65535, caliper := min 5000 5000
          dropTimeout := max 50 (min 2000 65535), refillTimeout := max 50 (min 2000 0)
          trip := if (0 : Fin 2) = 0 then .disable else .stop
          mon := ⟨max 1 (min 15 255), max 1 (min 255 0), max 2 (min 255 0)⟩ } := by decide +kernel

/-- A scheme entry of two digits. -/
def entry : SchemeEntry := ⟨2, [0x31, 0x32, 0, 0, 0], 254⟩

theorem witness_PostalEntriesStored :
    (∃ stored : SchemeEntry → SchemeEntry, ∀ x, stored x = { x with chars := x.chars.take x.len ++ List.replicate (5 - x.len) 0 }) ∧
      ready.link.held = none ∧ ready.line.state ≠ .interlock ∧ ready.postalWritable = true ∧ Level.direct ≠ .mixed ∧
      (∀ x, some entry = some x → 1 ≤ x.len ∧ x.len ≤ 5 ∧ x.chars.length = 5 ∧ (x.chars.take x.len).all isDigit = true ∧ x.group ≤ 254 ∧
        ∀ (j : Fin 256) (y : SchemeEntry), j ≠ 255 → ready.postal.scheme[j] = some y → y.chars.take y.len ≠ x.chars.take x.len) ∧
      (∀ k : Fin 8, (Vector.replicate 8 65535)[k] < 65536) ∧
      (1 ≤ [1, 65535].length ∧ [1, 65535].length ≤ 8 ∧ [1, 65535].Pairwise (· < ·) ∧ (∀ b ∈ [1, 65535], 1 ≤ b ∧ b < 65536)) ∧
      ready.jobOpen = false := by
  refine ⟨⟨_, fun _ => rfl⟩, by decide +kernel, by decide +kernel, by decide +kernel, by decide, ?_, by decide +kernel, by decide,
    by decide +kernel⟩
  intro x hx
  obtain rfl : entry = x := by simpa using hx
  refine ⟨by decide, by decide, by decide, by decide, by decide, fun j y _ hy => ?_⟩
  simp [ready, State.reset, State.afterReset, Postal.powerOn] at hy

theorem witness_TableAccessChecked :
    ready.link.held = none ∧ (List.replicate 238 (0 : Byte)).length ≤ 238 ∧
      { ready with line.state := .interlock }.line.state = .interlock ∧ ready.line.state ≠ .interlock ∧
      writableRef 0x00 0x00 = none ∧ writableRef 0x04 0xFF = some (.scheme 255) ∧ [(0 : Byte)].length ≠ (TableRef.scheme 255).length ∧
      (List.replicate 8 (0 : Byte)).length = (TableRef.scheme 255).length ∧ idle.tableBlocked .weightSteps = true ∧
      (List.replicate 17 (0 : Byte)).length = TableRef.weightSteps.length ∧ idle.line.state ≠ .interlock ∧
      { ready with postal.mode := .powerLocked }.tableBlocked (.scheme 255) = false ∧
      { ready with postal.mode := .powerLocked }.groupWritable (.scheme 255) = false ∧
      ready.tableBlocked (.scheme 255) = false ∧ ready.groupWritable (.scheme 255) = true ∧
      writeEntry (.scheme 255) (List.replicate 8 0xFF) ready = none ∧ tableRef 0x00 0x00 = some .config ∧
      tableRef 0x01 0x00 = none ∧ (0x01, 15, .plant) ∈ tableShapes ∧ tableRef 0x05 0xFF = none ∧ (0x05, 1, .postal) ∈ tableShapes ∧
      tableRef 0x09 0x00 = none ∧ 8 < (0x09 : Byte).toNat := by
  decide +kernel

theorem witness_SetLockByModeHeld :
    ready.link.held = none ∧ { ready with line.state := .interlock }.line.state = .interlock ∧ ready.line.state ≠ .interlock ∧
      lockGroupOfCode 0x02 = none ∧ lockModeOfCode 0x04 = none ∧
      lockGroupOfCode 0x01 = some .postal ∧ lockModeOfCode 0x03 = some .powerLocked := by decide +kernel

theorem witness_SetupStoreGuarded :
    let s : State := { idle with plant.mode := .powerLocked, postal.mode := .runLocked }
    exec (.restart 1 []) s = .next (out (.restart 1 []) s) ∧ resets (.restart 1 []) s = false ∧ s.jobOpen = true ∧
      s.plant.mode = .powerLocked ∧ s.postal.mode = .runLocked ∧
      exec (.writeTable 1 [0x02, 0x00, 0x3F]) ready = .next (out (.writeTable 1 [0x02, 0x00, 0x3F]) ready) ∧
      resets (.writeTable 1 [0x02, 0x00, 0x3F]) ready = false ∧ (out (.writeTable 1 [0x02, 0x00, 0x3F]) ready).plant ≠ ready.plant ∧
      (exec (.frameDiscarded [0xC3, 0x01]) ready = .next (out (.frameDiscarded [0xC3, 0x01]) ready) ∧
        ∀ v ∈ (gatherBytes ready.link.receive.bytes [0xC3, 0x01]).2, v = .badLength ∨ v = .incomplete) := by
  refine ⟨exec_out (by decide +kernel), by decide +kernel, by decide +kernel, by decide +kernel, by decide +kernel,
    exec_out (by decide +kernel), by decide +kernel, by decide +kernel, exec_out (by decide +kernel), by decide +kernel⟩

theorem witness_ConfigurationBytesRead :
    List.Forall₂ (fun (f : ConfigField) v => f.lo ≤ v ∧ v ≤ f.hi) configFields (configValues cfg) := by
  simp [configFields, configValues, cfg, configOfValues]

theorem witness_EntryBytesRead :
    (edgeStation.weight ≤ 5000 ∧ edgeStation.caliper ≤ 5000 ∧ 50 ≤ edgeStation.dropTimeout ∧ edgeStation.dropTimeout ≤ 2000 ∧
        50 ≤ edgeStation.refillTimeout ∧ edgeStation.refillTimeout ≤ 2000 ∧ 1 ≤ edgeStation.mon.u ∧ edgeStation.mon.u ≤ 15 ∧
        1 ≤ edgeStation.mon.d ∧ edgeStation.mon.d ≤ 255 ∧ 2 ≤ edgeStation.mon.t ∧ edgeStation.mon.t ≤ 255) ∧
      (plan.offset < 65536 ∧ 50 ≤ plan.block ∧ plan.block ≤ 1000 ∧ plan.offset + plan.block ≤ 2970 ∧ plan.nest ≤ 100 ∧
        200 ≤ plan.panelMin ∧ plan.panelMin ≤ 1000 ∧ 1 ≤ plan.capacity ∧ plan.capacity ≤ capacityLimit plan.type) ∧
      (1 ≤ entry.len ∧ entry.len ≤ 5 ∧ entry.chars.length = 5 ∧ (entry.chars.take entry.len).all isDigit = true ∧ entry.group ≤ 254) ∧
      (1 ≤ [1, 65535].length ∧ [1, 65535].length ≤ 8 ∧ [1, 65535].Pairwise (· < ·) ∧ ∀ b ∈ [1, 65535], 1 ≤ b ∧ b < 65536) ∧
      (∀ k : Fin 8, (Vector.replicate 8 65535)[k] < 65536) ∧
      (1 ≤ (record 16777215).piece ∧ (record 16777215).piece ≤ Config.maxPiece ∧ 1 ≤ (record 1).sheets ∧ (record 1).sheets ≤ 24 ∧
        ∀ k, (record 1).key = some k → k ≤ 99999) ∧
      (∀ k : Fin 4, 1 ≤ RangeFilter.reset.ranges[k].low ∧ RangeFilter.reset.ranges[k].low ≤ RangeFilter.reset.ranges[k].high ∧
        RangeFilter.reset.ranges[k].high ≤ Config.maxPiece) ∧
      (1 ≤ edgeJob.code ∧ edgeJob.code < 65536 ∧ 1 ≤ edgeJob.first ∧ edgeJob.first ≤ Config.maxPiece ∧ 1 ≤ edgeJob.skip ∧
        edgeJob.skip ≤ 16) := by
  refine ⟨by decide, by decide, by decide, by decide, by decide +kernel, ⟨by decide, by decide, by decide, by decide, ?_⟩,
    by decide +kernel, by decide⟩
  intro k hk
  obtain rfl : 12345 = k := by simpa [record] using hk
  decide

theorem witness_FrameAndInstrumentBytesRead :
    (List.replicate 240 (0 : Byte)).length ≤ 240 ∧ (holding true).reply.fields.length ≤ 239 ∧
      checkSumOk [0x01, 7, 0x00, 0, 7, 0, 0, 5, 1, 2, 0, 0xE9] = true ∧ checkSumOk [0x01, 7, 0x01, 0, 7, 0, 0, 5, 1, 2, 0, 0xE8] = true ∧
      checkSumOk [0x02, 7, 0xF7] = true ∧ checkSumOk [0x11, 0x00, 0, 0, 5, 0xEA] = true ∧
      checkSumOk [0x11, 0x01, 0, 0, 5, 0xE9] = true ∧ checkSumOk [0x21, 0, 9, 0xCB, 0x0B] = true := by decide +kernel

theorem witness_RangeFilterReplaced :
    ready.link.held = none ∧ ready.line.state ≠ .standby ∧ State.reset.link.held = none ∧ State.reset.line.state = .standby ∧
      (∀ k : Fin 4, 1 ≤ RangeFilter.reset.ranges[k].low ∧ RangeFilter.reset.ranges[k].low ≤ RangeFilter.reset.ranges[k].high ∧
        RangeFilter.reset.ranges[k].high ≤ Config.maxPiece) ∧
      (List.replicate 29 (0 : Byte)).length = 29 ∧ parseFilter (List.replicate 29 0) = none ∧ [(0 : Byte)].length ≠ 0 ∧
      [(0 : Byte)].length ≠ 29 ∧ RangeFilter.reset.sense = .inside ∧
      ({ RangeFilter.reset with sense := .outside } : RangeFilter).sense = .outside := by decide +kernel

/-- A divert entry of piece 6. -/
def diverted : DivertEntry := ⟨1, .matched, some 6, faultMask .weightMismatch, .late, 2, 0⟩

theorem witness_LoadPiecesChecksAndStores :
    idle.link.held = none ∧ idle.NoSweep ∧ idle.line.state.takesLoad = true ∧ 1 ≤ (record 2048).sheets ∧ (record 2048).sheets ≤ 24 ∧
      (∀ k, (record 2048).key = some k → k ≤ 99999) ∧ idle.plant.plans[(record 2048).plan].isSome = true ∧ idle.reg.queue.length < 128 ∧
      idle.reg.base ≤ 2048 ∧ 2048 < idle.reg.base + 2048 ∧ (record 2048).reprint = false ∧ idle.pieceState 2048 = .free ∧
      { idle with reg.window := [(6, .diverted)], reg.diverts := [diverted] }.pieceState 6 = .diverted ∧
      ¬ 2049 < idle.reg.base + 2048 := by
  unfold State.NoSweep
  refine ⟨by decide +kernel, by decide +kernel, by decide +kernel, by decide, by decide, ?_, by decide +kernel, by decide +kernel,
    by decide +kernel, by decide +kernel, by decide, by decide +kernel, by decide +kernel, by decide +kernel⟩
  intro k hk
  obtain rfl : 12345 = k := by simpa [record] using hk
  decide

/-- IDLE with piece 5 queued, 6 diverted, 7 in flight and a stray, number 2, of piece 9. -/
def stocked : State :=
  { idle.putSet 0 (some (pieceSet 7)) with
    reg.queue := [record 5], reg.window := [(5, .held), (6, .diverted), (7, .held)]
    reg.diverts := [diverted, ⟨2, .stray, some 9, 0, .early, 1, 0⟩] }

theorem witness_PiecesAndStraysSettled :
    stocked.link.held = none ∧ stocked.NoSweep ∧ stocked.jobOpen = true ∧ idle.jobOpen = true ∧ ready.jobOpen = false ∧
      stocked.reg.base = 1 ∧ stocked.pieceState 6 = .diverted ∧ stocked.pieceState 5 = .held ∧ stocked.queuePosition 5 = some 0 ∧
      stocked.queuePosition 7 = none ∧ stocked.pieceState 7 = .held ∧ stocked.holder 7 = some 0 ∧ stocked.setAt 0 = some (pieceSet 7) ∧
      stocked.pieceState 8 = .free ∧ ¬ 2049 < stocked.reg.base + 2048 ∧
      (stocked.reg.diverts = [diverted] ++ ⟨2, .stray, some 9, 0, .early, 1, 0⟩ :: [] ∧ (∀ x ∈ [diverted], x.number = 2 → x.kind = .matched)) ∧
      (∀ e ∈ stocked.reg.diverts, e.number = 1 → e.kind = .matched) ∧
      (∀ e ∈ stocked.reg.diverts, e.number = 65535 → e.kind = .matched) ∧ (0x08 : Byte).toNat ≤ 8 ∧ 8 < (0x09 : Byte).toNat ∧
      { stocked with reg.base := 5 }.reg.base = 5 := by
  unfold State.NoSweep
  decide +kernel

theorem witness_MatchTakesRecord :
    let queue := [record 2, record 3, record 4, record 5]
    let s : State := { idle with reg.queue := queue, reg.window := [(2, .held), (3, .held), (4, .held), (5, .held)] }
    s.reg.job = some ⟨7, 1, .sequence, 31, 3⟩ ∧ queue = [record 2, record 3, record 4] ++ record 5 :: [] ∧
      (∀ q ∈ [record 2, record 3, record 4], q.piece ≠ 5) ∧ [record 2, record 3, record 4].length ≤ 3 ∧
      windowWf s.reg.window = true ∧ s.reg.counters.missing ≤ 4294967295 ∧
      { s with reg.job := some ⟨7, 1, .lookup, 31, 3⟩ }.reg.job = some ⟨7, 1, .lookup, 31, 3⟩ ∧
      { s with reg.job := some ⟨7, 1, .sequence, 31, 2⟩ }.reg.job = some ⟨7, 1, .sequence, 31, 2⟩ ∧
      2 < [record 2, record 3, record 4].length ∧ (∀ r ∈ s.reg.queue, r.piece ≠ 6) := by decide +kernel

/-- RUNNING with piece 5 queued and piece 6 in flight, waiting to void piece 5. -/
def settled : State :=
  { running.putSet 0 (some (pieceSet 6)) with
    reg.queue := [record 5], reg.window := [(5, .held), (6, .held)], pending := [.voidPiece 1 (toBytes 3 5)] }

theorem settled_setAt (i : Slot) : settled.setAt i = if i = 0 then some (pieceSet 6) else none := by
  revert i; decide +kernel

theorem settled_holds {i : Slot} {p : Nat} (h : settled.Holds i p) : i = 0 ∧ p = 6 := by
  obtain ⟨r, hr, -, hp⟩ := h
  rw [settled_setAt] at hr
  split at hr
  · obtain rfl : pieceSet 6 = r := by simpa using hr
    exact ⟨by assumption, by simpa [pieceSet] using hp.symm⟩
  · simp at hr

theorem settled_queued {p : Nat} : settled.Queued p ↔ p = 5 := by
  simp [State.Queued, settled, record, State.putSet, eq_comm]

theorem witness_PiecesKept : settled.PiecesOk ∧ step settled = .next (outStep settled) ∧ (outStep settled).reg.queue = [] := by
  refine ⟨⟨by decide +kernel, by decide +kernel, .inl (by decide +kernel), by decide +kernel, ?_, ?_, ?_, ?_, ?_⟩,
    step_out (by decide +kernel), by decide +kernel⟩
  · intro p
    have h0 : settled.Holds 0 6 := ⟨pieceSet 6, by decide +kernel, by decide, by decide⟩
    constructor
    · intro h
      by_cases h5 : p = 5
      · exact .inl (settled_queued.2 h5)
      · by_cases h6 : p = 6
        · exact .inr ⟨0, h6 ▸ h0⟩
        · simp [State.pieceState, windowGet, show settled.reg.window = [(5, .held), (6, .held)] from rfl, Ne.symm h5, Ne.symm h6] at h
    · rintro (h | ⟨i, h⟩)
      · rw [settled_queued.1 h]; decide +kernel
      · rw [(settled_holds h).2]; decide +kernel
  · intro p i hq hh
    have := settled_queued.1 hq
    have := (settled_holds hh).2
    omega
  · intro p i j hi hj
    rw [(settled_holds hi).1, (settled_holds hj).1]
  · intro i r rec hr hrec
    rw [settled_setAt] at hr
    split at hr
    · obtain rfl : pieceSet 6 = r := by simpa using hr
      obtain rfl : record 6 = rec := by simpa [pieceSet] using hrec
      rfl
    · simp at hr
  · intro p
    rw [show settled.reg.diverts = [] from rfl]
    simp only [State.pieceState, windowGet, show settled.reg.window = [(5, .held), (6, .held)] from rfl]
    repeat' split
    all_goals simp

theorem witness_CapacitiesKept :
    let s : State := { idle with
      reg.queue := List.replicate 128 (record 5), reg.counters.voided := 4294967295
      reg.diverts := List.replicate 128 diverted, pending := [.voidPiece 1 (toBytes 3 5)] }
    s.RegisterOk ∧ s.ReserveOk ∧ step s = .next (outStep s) := by
  refine ⟨?_, ?_, step_out (by decide +kernel)⟩
  · unfold State.RegisterOk; decide +kernel
  · unfold State.ReserveOk; decide +kernel

theorem witness_FaultsNeverRemoved :
    let s := withSet { pieceSet 5 with faults := faultMask .longSet } { running with sets.accumulator := some 0 }
    exec .interlockOpen s = .next (out .interlockOpen s) ∧ s.setAt 0 = some { pieceSet 5 with faults := faultMask .longSet } ∧
      (out .interlockOpen s).setAt 0 = some { pieceSet 5 with faults := faultMask .longSet } ∧
      s.FaultsOk ∧ step { s with pending := [.interlockOpen] } = .next (outStep { s with pending := [.interlockOpen] }) := by
  refine ⟨exec_out (by decide +kernel), by decide +kernel, by decide +kernel, fun i r h => ?_, step_out (by decide +kernel)⟩
  have one : ∀ i : Slot, i = 0 ∨ (withSet { pieceSet 5 with faults := faultMask .longSet }
      { running with sets.accumulator := some 0 }).setAt i = none := by decide +kernel
  rcases one i with rfl | hn
  · obtain rfl : { pieceSet 5 with faults := faultMask .longSet } = r := Option.some.inj h
    decide
  · rw [hn] at h; cases h

/-- A manifest entry. -/
def listed : ManifestEntry := running.closeEntry 0 ⟨1, 3, 2, 900, .replicate 8 0, 1, 2, 0⟩ .count

/-- RUNNING at the limits of the feed conditions: fifteen sets in flight, 112 divert entries, 48 manifest entries. -/
def crowded : State :=
  { running with
    reg.pool := (Vector.replicate 16 (some blankSet)).set 15 none, reg.diverts := List.replicate 112 diverted
    postage.manifest := List.replicate 48 listed }

theorem witness_FeedRequestedWhenReady :
    crowded.line.state = .running ∧ crowded.coll.state = .setStart ∧ crowded.coll.state ≠ .idle ∧ crowded.coll.transit = .none ∧
      crowded.sets.accumulator = none ∧ crowded.setsInFlight + 1 = 16 ∧ crowded.setsInFlight + 1 ≤ 128 - crowded.reg.diverts.length ∧
      crowded.unassigned + 1 ≤ 64 - crowded.postage.manifest.length ∧ crowded.reg.queue = [] ∧
      { crowded with reg.queue := [record 5] }.reg.queue ≠ [] := by decide +kernel

theorem witness_ReadsKept :
    (fed []).Calm ∧ (fed []).NoSweep ∧ (fed []).coll.transit = .feeding (some 3) [] ⟨0, 2000⟩ ∧ (fed []).coll.state ≠ .idle ∧
      (∃ x : Byte, some (3 : Byte) = some x ∧ x ≠ 4) ∧
      { running with coll.transit := .feeding none [] ⟨0, 2000⟩, coll.closedTag := some 4 }.coll.closedTag = some 4 ∧
      (let raw : RawMark := ⟨7, 5, 31, 31, 7⟩; raw.piece ≠ 0 ∧ 1 ≤ raw.index.toNat ∧ raw.index.toNat ≤ 31 ∧ 1 ≤ raw.count.toNat ∧
        raw.count.toNat ≤ 31 ∧ raw.wrap.toNat ≤ 7) ∧
      7 < (⟨7, 5, 1, 1, 8⟩ : RawMark).wrap.toNat ∧ (⟨7, 0, 1, 1, 0⟩ : RawMark).piece = 0 ∧
      { running with coll.transit := .decided 15 true }.coll.transit = .decided 15 true := by
  unfold State.Calm State.NoSweep
  refine ⟨by decide +kernel, by decide +kernel, by decide +kernel, by decide +kernel, ⟨3, rfl, by decide⟩, ?_⟩
  decide +kernel

theorem witness_SheetEndStartsSet :
    let s := fed [mark 1 7]
    s.Calm ∧ s.NoSweep ∧ s.coll.transit = .feeding (some 3) (mark 1 7 :: []) ⟨0, 2000⟩ ∧ s.coll.state = .setStart ∧
      (mark 1 7).job = s.jobCode ∧ (mark 1 7).index = 1 ∧ s.freeSlot = some 0 ∧ s.line.state = .running ∧ s.sets.accumulator = none := by
  unfold State.Calm State.NoSweep
  decide +kernel

theorem witness_SheetEndContinuesSetOrHunts :
    let s : State := withSet (pieceSet 5) { fed [mark 2 1] with coll.state := .inSet, coll.current := some 0 }
    let h : State := withSet { blankSet with faults := faultMask .unattributed, received := 23 }
      { fed [] with coll.state := .hunt, coll.current := some 0 }
    s.NoSweep ∧ s.coll.transit = .feeding (some 3) [mark 2 1] ⟨0, 2000⟩ ∧ some (mark 2 1) = [mark 2 1].head? ∧ s.coll.state = .inSet ∧
      s.coll.current = some 0 ∧ s.setAt 0 = some (pieceSet 5) ∧ (mark 2 1).job = s.jobCode ∧ (pieceSet 5).piece = some (mark 2 1).piece ∧
      h.NoSweep ∧ h.coll.transit = .feeding (some 3) [] ⟨0, 2000⟩ ∧ h.coll.state = .hunt ∧ h.coll.current = some 0 ∧
      h.setAt 0 = some { blankSet with faults := faultMask .unattributed, received := 23 } := by
  unfold State.NoSweep
  decide +kernel

/-- The first sheet of piece 6. -/
def first : Mark := ⟨7, 6, 1, 2, 0⟩

/-- IN_SET or HUNT with a set or bundle in the accumulator, where the sheet in transit is the first of piece 6, after a wrap gap. -/
def interrupted (state : CollState) (r : SetRecord) : State :=
  withSet r { fed [first] with
    coll.state := state, coll.current := some 0, coll.expectedWrap := some 2, sets.accumulator := some 0 }

theorem witness_SheetClosesSetAndStartsNext :
    let s := interrupted .inSet (pieceSet 5)
    let h := interrupted .hunt { blankSet with faults := faultMask .unattributed }
    (s.NoSweep ∧ s.coll.state = .inSet ∧ s.coll.current = some 0 ∧ s.setAt 0 = some (pieceSet 5) ∧
        s.continuesSet (some first) = false ∧ s.startsSet (some first) = true ∧ s.freeSlot = some 1 ∧ s.sets.accumulator = some 0) ∧
      (h.NoSweep ∧ h.coll.state = .hunt ∧ h.coll.current = some 0 ∧ h.startsSet (some first) = true ∧ h.freeSlot = some 1) := by
  unfold State.NoSweep
  decide +kernel

theorem witness_HuntSheetOpensBundle :
    (∀ s ∈ [fed [mark 2 1], { fed [mark 2 1] with line.state := .runout, line.runoutTarget := .jobIdle },
        { fed [mark 2 1] with coll.state := .hunt, coll.huntCount := cfg.huntCount - 1 }],
      s.huntsSheet (some (mark 2 1)) = true ∧ s.freeSlot = some 0 ∧ s.coll.current = none ∧ s.line.state ≠ .sweep ∧
        s.line.runoutTarget ≠ .sweep) ∧
      (interrupted .inSet (pieceSet 5)).huntsSheet (some { first with index := 2 }) = true := by decide +kernel

theorem witness_SheetEndReadEvents :
    let s : State := { fed [] with coll.state := .hunt, coll.huntCount := cfg.huntCount - 1 }
    s.jobOpen = true ∧ s.freeSlot ≠ none ∧ s.huntsSheet none = true ∧ s.cfg.huntCount ≤ s.coll.huntCount + 1 ∧
      s.mon.read.level + 2 * s.cfg.readMon.u < s.cfg.readMon.t ∧
      { s with mon.read := ⟨12, 0⟩ }.cfg.readMon.t ≤ 12 + s.cfg.readMon.u ∧ s.motion = true ∧
      { s with line.state := .pausing }.line.state = .pausing := by decide +kernel

theorem witness_FeedTimeoutEndsFeed :
    let r : State := withSet (pieceSet 5) { fed [] with
      line.state := .runout, line.runoutTarget := .jobIdle, coll.state := .inSet, coll.current := some 0 }
    running.NoSweep ∧ running.feeding = false ∧ (fed []).NoSweep ∧ (fed []).line.state = .running ∧
      { fed [] with line.state := .pausing }.line.state = .pausing ∧ r.NoSweep ∧ r.Calm ∧ r.line.state = .runout ∧
      r.coll.state = .inSet ∧ r.coll.current = some 0 ∧ r.setAt 0 = some (pieceSet 5) := by
  unfold State.NoSweep State.Calm
  decide +kernel

theorem witness_GateOpensAndSheetEnters :
    let s : State := withSet (pieceSet 5) { running with sets.gate := .passing 0, coll.transit := .decided 0 true }
    running.NoSweep ∧ running.sets.gate = .closed none ∧ { running with sets.gate := .closed (some 15) }.sets.gate = .closed (some 15) ∧
      s.NoSweep ∧ s.Calm ∧ s.sets.gate = .passing 0 ∧ s.setAt 0 = some (pieceSet 5) ∧ s.coll.transit = .decided 0 true := by
  unfold State.NoSweep State.Calm
  decide +kernel

/-- READY with an insert class 0 of S1 and S2, whose inserts are those of chapter 4, and the configuration and plan 0 given. -/
def planning (c : LineConfig) (p : FoldPlan) : State :=
  { ready with
    plant.config := some c, plant.plans := ready.plant.plans.set 0 (some p), plant.classes := ready.plant.classes.set 0 3
    plant.stations := ready.plant.stations.set 0 { StationRecord.powerOn with caliper := 370, weight := 490 } }

/-- The whole numbers of worked case 1 of chapter 4 meet what the Fold Planner's statement asks of them, and each of its other
cases has a configuration. -/
theorem witness_FoldPlannerRuns :
    let s := planning cfg plan
    (record 5).plan = 0 ∧ s.plant.plans[(record 5).plan] = some plan ∧ plan.capacity < 9 ∧
      ((1100 : Int) = s.cfg.envelopeDepth - s.cfg.clearance ∧
        (990 : Int) = s.cfg.envelopeDepth + plan.offset + plan.block - s.cfg.windowBottom ∧
        (1140 : Int) = s.cfg.envelopeDepth + plan.offset - s.cfg.windowTop) ∧
      panelBounds plan s.cfg.sheetLength 1010 1345 ∧ max (990 : Int) 1010 ≤ min 1100 (min 1140 1345) ∧
      (2 * (1055 : Int) ≤ max 990 1010 + min 1100 (min 1140 1345) ∧
        max 990 1010 + min 1100 (min 1140 1345) < 2 * (1055 : Int) + 2) ∧
      ((3 - 1) * s.cfg.sheetCaliper * 3 ≤ 200 * 3 ∧ 200 * 3 < (3 - 1) * s.cfg.sheetCaliper * 3 + 200) ∧
      (nearestStop (1055 + 3) 1060 ∧ nearestStop (1055 - plan.nest + 3) 1040 ∧ inPlateRange 1060 = 1060 ∧ inPlateRange 1040 = 1040) ∧
      (2000000 * 499 ≤ 2 * (s.cfg.grammage * s.cfg.sheetLength * s.cfg.sheetWidth) + 1000000 ∧
        2 * (s.cfg.grammage * s.cfg.sheetLength * s.cfg.sheetWidth) + 1000000 < 2000000 * 499 + 2000000) ∧
      -- the window below the envelope's fit (worked case 2), a panel that cannot be folded, and a sheet that needs no fold
      (min 1100 (min 1140 1345) < max (1140 + 450 + 300 - ({ cfg with windowBottom := 700 } : LineConfig).windowBottom : Int) 1010) ∧
      panelBounds { plan with nest := 100, panelMin := 1000 } 2970 1090 1035 ∧
      panelBounds { plan with type := .single } 2970 1495 2670 ∧ panelBounds { plan with type := .zig } 2970 997 1345 ∧
      (({ cfg with sheetLength := 1100 } : LineConfig).sheetLength : Int) ≤ 1100 := by
  simp only [panelBounds, nearestStop, show plan.type = .letter from rfl]
  decide +kernel

/-- A complete set of piece 5 whose faults are given, in the accumulator with a release in the item given. -/
def releasing (release : Release) (faults : FaultSet) : State :=
  withSet { pieceSet 5 with stage := .complete, faults } { running with sets.accumulator := some 0, sets.release := release }

theorem witness_ReleasesRun :
    (releasing .pending 0).sets.release = .pending ∧ (releasing .pending 0).sets.accumulator = some 0 ∧
      (releasing .pending 0).setAt 0 = some { pieceSet 5 with stage := .complete } ∧ (releasing .pending 0).working = true ∧
      faultMask .longSet ≠ 0 ∧ (releasing .pending (faultMask .longSet)).sets.earlyCount < (releasing .pending 0).cfg.earlyCapacity ∧
      { releasing .pending 0 with sets.earlyCount := 50 }.cfg.earlyCapacity ≤ 50 ∧
      running.NoSweep ∧ running.releasing = false ∧
      (releasing (.early ⟨0, 1000⟩) 1).NoSweep ∧ (releasing (.early ⟨0, 1000⟩) 1).Calm ∧
      (releasing (.early ⟨0, 1000⟩) 1).sets.release = .early ⟨0, 1000⟩ ∧ (releasing (.early ⟨0, 1000⟩) 1).coll.state ≠ .hunt ∧
      { releasing (.early ⟨0, 1000⟩) 1 with
        coll.state := .hunt, coll.current := some 0, coll.transit := .decided 0 false }.coll.transit = .decided 0 false ∧
      (releasing (.forward ⟨0, 1000⟩) 0).NoSweep ∧ (releasing (.forward ⟨0, 1000⟩) 0).Calm ∧
      (releasing (.forward ⟨0, 1000⟩) 0).sets.release = .forward ⟨0, 1000⟩ ∧ idle.NoSweep ∧ idle.line.state.atRest = true := by
  unfold State.NoSweep State.Calm
  decide +kernel

/-- A set with two stops in the folder, whose state is given. -/
def folding (folder : Folder) : State :=
  withSet { pieceSet 5 with stage := .folding, stop1 := some 2400, stop2 := some 500 }
    { running with sets.folderSet := some 0, sets.folder := folder, sets.plate1 := some 2400 }

theorem witness_FolderMovesAndFolds :
    (folding .waiting).sets.folderSet = some 0 ∧
      (folding .waiting).setAt 0 = some { pieceSet 5 with stage := .folding, stop1 := some 2400, stop2 := some 500 } ∧
      (folding .waiting).sets.folder = .waiting ∧ (folding .waiting).working = true ∧
      (folding (.moving none (some 500) ⟨0, 3000⟩)).NoSweep ∧ (folding (.moving none (some 500) ⟨0, 3000⟩)).Calm ∧
      (folding (.moving none (some 500) ⟨0, 3000⟩)).sets.folder = .moving none (some 500) ⟨0, 3000⟩ ∧
      (folding (.moving none (some 500) ⟨0, 3000⟩)).sets.plate1 = some 2400 ∧
      (folding (.folding ⟨0, 1500⟩)).NoSweep ∧ (folding (.folding ⟨0, 1500⟩)).Calm ∧
      (folding (.folding ⟨0, 1500⟩)).sets.folder = .folding ⟨0, 1500⟩ ∧ (folding (.folding ⟨0, 1500⟩)).sets.buffer = none ∧
      (folding .waiting).NoSweep ∧ (folding .waiting).folderAtRest = true := by
  unfold State.NoSweep State.Calm
  decide +kernel

theorem witness_TimeoutsStopLine :
    let s : State := withSet (pieceSet 5) { running with
      track.carriers := running.track.carriers.set 0 (some 0), track.index := some ⟨0, 1000⟩, sets.release := .forward ⟨0, 1000⟩ }
    let z : State := { s with track.zones := s.track.zones.set 3 { s.track.zones[3] with
      motion := true, sensors := s.track.zones[3].sensors.set 3 ⟨true, some ⟨0, 500⟩⟩ } }
    s.NoSweep ∧ s.motion = true ∧ s.track.index.isSome = true ∧ s.releasing = true ∧ s.carrier 0 = some 0 ∧
      { s with line.state := .pausing }.line.state = .pausing ∧ running.track.index.isSome = false ∧
      { s with line.state := .paused }.line.state.atRest = true ∧
      z.NoSweep ∧ z.track.zones[3].sensors[3].timer.isSome = true ∧ zoneOfCode (BitVec.ofNat 8 (3 : Fin 4).val) = some 3 ∧
      sensorOfCode (BitVec.ofNat 8 ((3 : Fin 4).val + 1)) = some 3 := by
  unfold State.NoSweep
  decide +kernel

/-- RUNNING with an EXIT monitor that one good event lowers. -/
def oneGood : State := { running with plant.config := some { cfg with exitMon := ⟨1, 1, 2⟩ }, mon.exit := ⟨1, 0⟩ }

theorem witness_GoodEventCounts :
    running.takesEvents .read = true ∧ (running.monLevel .read).good < (running.monParams .read).d ∧
      { running with mon.read := ⟨12, 49⟩ }.mon.read.good + 1 = (running.monParams .read).d ∧
      oneGood.takesEvents .exit = true ∧ (oneGood.monLevel .exit).good < (oneGood.monParams .exit).d ∧
      (oneGood.monParams .exit).d = 1 ∧ (oneGood.monLevel .exit).good = 0 := by decide +kernel

theorem witness_FaultEventRaisesOrTrips :
    let d : State := { running with
      plant.stations := running.plant.stations.set 5 { StationRecord.powerOn with trip := .disable }, mon.stations := .replicate 6 ⟨14, 3⟩ }
    ready.takesEvents .read = false ∧ { running with track.stations := .replicate 6 .reset }.takesEvents (.station 5) = false ∧
      running.takesEvents .read = true ∧ (running.monLevel .read).level + (running.monParams .read).u < (running.monParams .read).t ∧
      { running with mon.read := ⟨12, 3⟩ }.takesEvents .read = true ∧
      (running.monParams .read).t ≤ 12 + (running.monParams .read).u ∧ running.tripAction .read = .stop ∧ running.motion = true ∧
      (∀ n : StationId, (running.station n).pendingDisable = false) ∧ { running with line.state := .pausing }.line.state = .pausing ∧
      idle.takesEvents .read = true ∧ idle.motion = false ∧ idle.line.state ≠ .pausing ∧ d.tripAction (.station 5) = .disable ∧
      d.takesEvents (.station 5) = true ∧
      (d.monParams (.station 5)).t ≤ (d.monLevel (.station 5)).level + (d.monParams (.station 5)).u := by decide +kernel

theorem witness_MonitorsBelowThreshold :
    let s : State := withSet (pieceSet 5) { running with
      track.carriers := running.track.carriers.set 10 (some 0), track.scan := some ⟨0, 300⟩, mon.exit := ⟨15, 49⟩, pending := [.scanTimeout] }
    s.MonitorsOk ∧ step s = .next (outStep s) ∧ (outStep s).mon.exit = ⟨0, 0⟩ := by
  refine ⟨⟨?_, ?_⟩, step_out (by decide +kernel), by decide +kernel⟩
  · simp only [MonParams.Live, MonLevel.Below]; decide +kernel
  · intro c hc
    obtain rfl : cfg = c := by simpa [withSet, State.putSet, running, idle, ready] using hc
    unfold MonParams.Live MonLevel.Below; decide +kernel

theorem witness_PlateStopsInRange :
    let s : State := { folding .waiting with pending := [.foldStart] }
    s.StopsOk ∧ step s = .next (outStep s) ∧ (outStep s).sets.folder = .moving none (some 500) ⟨0, 3000⟩ := by
  refine ⟨⟨?_, ?_⟩, step_out (by decide +kernel), by decide +kernel⟩
  · simp only [stopOk]; decide +kernel
  · rintro x ⟨i, r, hr, hx⟩
    have h : ∀ i : Slot, ∀ r ∈ (folding .waiting).setAt i, (∀ y ∈ r.stop1, 500 ≤ y ∧ y ≤ 2400 ∧ y % 5 = 0) ∧
        (∀ y ∈ r.stop2, 500 ≤ y ∧ y ≤ 2400 ∧ y % 5 = 0) := by decide +kernel
    have := h i r hr
    rcases hx with hx | hx
    · exact this.1 x hx
    · exact this.2 x hx

/-- RUNNING with a set of piece 5 on the carrier at a position. -/
def carrying (p : Position) (r : SetRecord) : State :=
  withSet r { running with track.carriers := running.track.carriers.set p.val (some 0) p.isLt, track.exitClear := true }

/-- A set of piece 5 at P11 with its bin. -/
def assigned : SetRecord := { pieceSet 5 with bin := some 10, tray := some 1, group := some 255, step := some 0, expected := some 900 }

theorem witness_IndexStartsAndMovesCarriers :
    let s := carrying 11 assigned
    let l : State := withSet { assigned with bin := none, faults := faultMask .weightMismatch } { s with track.lateCount := 49 }
    let x : State := { carrying 11 assigned with track.index := some ⟨0, 1000⟩, sets.buffer := some 1 }
    s.motion = true ∧ s.carrier 11 ≠ none ∧ (∀ n : StationId, s.awaitsDrop n = false ∧ (s.station n).drop = none) ∧
      s.awaitsInsert = false ∧ s.track.head.insert = none ∧ s.awaitsScan = false ∧ s.track.scan = none ∧ s.awaitsWeigh = false ∧
      s.track.weigh = none ∧ s.track.index = none ∧ s.carrier 11 = some 0 ∧ s.setAt 0 = some assigned ∧ assigned.bin ≠ none ∧
      s.track.transport = none ∧ s.track.exitClear = true ∧ { s with track.exitClear := false }.track.exitClear = false ∧
      l.setAt 0 = some { assigned with bin := none, faults := faultMask .weightMismatch } ∧ l.track.lateCount < l.cfg.lateCapacity ∧
      running.NoSweep ∧ running.track.index = none ∧ x.NoSweep ∧ x.Calm ∧ x.track.index ≠ none ∧ x.coll.state ≠ .hunt ∧
      x.carrier 11 = some 0 ∧ x.setAt 0 = some assigned ∧ (∀ p : Fin 11, x.carrier p.castSucc = none) ∧ x.sets.buffer = some 1 := by
  unfold State.NoSweep State.Calm
  decide +kernel

/-- The record of a station with a drop outstanding. -/
def dropping : Station := { Station.reset with state := .dropping, drop := some ⟨0, 500⟩ }

/-- S6, the last station. -/
def s6 : StationId := 5

theorem witness_DropsRun :
    let r : SetRecord := { pieceSet 5 with stationsNeeded := 32 }
    let s := carrying 6 r
    let d : State := { s with track.stations := s.track.stations.set 5 dropping }
    s.NoSweep ∧ s.Calm ∧ s.carrier (stationPosition s6) = some 0 ∧ s.setAt 0 = some r ∧ s.motion = true ∧ r.faults = 0 ∧
      hasStation r.stationsNeeded s6 = true ∧ hasStation r.stationsDone s6 = false ∧ (s.station s6).state = .ready ∧
      (s.station s6).drop = none ∧
      ({ s with track.stations := .replicate 6 .reset }.station s6).state = .off ∧
      ({ s with track.stations := s.track.stations.set 5 { Station.reset with state := .empty } }.station s6).state = .empty ∧
      d.NoSweep ∧ d.Calm ∧ (d.station s6).drop ≠ none ∧ (d.station s6).state = .dropping ∧ (d.station s6).pendingDisable = false ∧
      ({ d with track.stations := d.track.stations.set 5 { dropping with pendingDisable := true } }.station s6).pendingDisable = true := by
  unfold State.NoSweep State.Calm
  decide +kernel

/-- RUNNING with S6 in a refill sequence. -/
def refilling (seq : RefillSeq) : State :=
  { running with track.stations := running.track.stations.set 5 { Station.reset with state := .refilling, seq } }

theorem witness_RefillsRun :
    running.NoSweep ∧ (refilling (.waiting 3)).NoSweep ∧ ((refilling (.waiting 3)).station s6).seq = .waiting 3 ∧
      (running.station s6).seq = .none ∧ (refilling (.running 2 ⟨0, 1000⟩)).NoSweep ∧ (refilling (.running 2 ⟨0, 1000⟩)).Calm ∧
      ((refilling (.running 2 ⟨0, 1000⟩)).station s6).seq = .running 2 ⟨0, 1000⟩ ∧
      ((refilling (.running 2 ⟨0, 1000⟩)).station s6).state = .refilling ∧ (refilling (.running 2 ⟨0, 1000⟩)).awaitsDrop s6 = false ∧
      (running.monLevel (.station s6)).level + (running.monParams (.station s6)).u < (running.monParams (.station s6)).t ∧
      running.jobOpen = true ∧ { refilling (.running 3 ⟨0, 1000⟩) with line.state := .paused }.motion = false := by
  unfold State.NoSweep State.Calm
  decide +kernel

/-- RUNNING with a carrier that waits for S6, whose third refill attempt is outstanding. -/
def lastAttempt : State :=
  let s := carrying 6 { pieceSet 5 with stationsNeeded := 32 }
  { s with track.stations := s.track.stations.set 5 { Station.reset with state := .refilling, seq := .running 3 ⟨0, 1000⟩ } }

theorem witness_LastRefillFailsInMotion :
    (∀ s ∈ [lastAttempt, { lastAttempt with line.state := .proving },
        { lastAttempt with line.state := .runout, line.runoutTarget := .jobIdle }],
      s.NoSweep ∧ s.motion = true ∧ s.Calm ∧ (s.station s6).seq = .running 3 ⟨0, 1000⟩ ∧ (s.station s6).state = .refilling ∧
        s.awaitsDrop s6 = true ∧ s.jobOpen = true ∧
        (∀ j : StationId, j ≠ s6 → s.carrier (stationPosition j) ≠ s.carrier (stationPosition s6)) ∧
        (s.monLevel (.station s6)).level + (s.monParams (.station s6)).u < (s.monParams (.station s6)).t) ∧
      ∀ x ∈ [StationState.tripped, .off],
        let y : Station := { Station.reset with state := x, seq := .running 2 ⟨0, 1000⟩ }
        let s : State := { running with track.stations := running.track.stations.set 5 y }
        s.NoSweep ∧ s.Calm ∧ (s.station s6).state = x := by
  unfold State.NoSweep State.Calm
  decide +kernel

theorem witness_InsertHeadRuns :
    let s := carrying 8 (pieceSet 5)
    let e : State := { s with track.head.pocket := .refilling }
    s.NoSweep ∧ s.Calm ∧ s.carrier 8 = some 0 ∧ s.setAt 0 = some (pieceSet 5) ∧ s.motion = true ∧ (pieceSet 5).faults = 0 ∧
      (pieceSet 5).insertDone = false ∧ s.track.head.insert = none ∧ s.track.head.refill = none ∧ s.track.head.pocket = .staged ∧
      e.track.head.pocket = .refilling ∧ e.track.head.refill = none ∧ { s with track.head.insert := some ⟨0, 800⟩ }.track.head.insert ≠ none ∧
      { e with track.head.refill := some ⟨0, 1000⟩ }.track.head.refill ≠ none ∧
      { e with line.state := .paused, track.head.refill := some ⟨0, 1000⟩ }.line.state.atRest = true := by
  unfold State.NoSweep State.Calm
  decide +kernel

/-- RUNNING with a carrier at P8 that waits for an envelope, whose refill is outstanding. -/
def envelopeDue : State :=
  { carrying 8 (pieceSet 5) with track.head.pocket := .refilling, track.head.refill := some ⟨0, 1000⟩ }

theorem witness_EnvelopeRefillsAndMisses :
    let e : State := { carrying 8 (pieceSet 5) with track.head.pocket := .empty }
    (envelopeDue.NoSweep ∧ envelopeDue.Calm ∧ envelopeDue.jobOpen = true ∧ envelopeDue.motion = true ∧ envelopeDue.awaitsInsert = true ∧
        envelopeDue.track.head.insert = none ∧ (∀ n : StationId, envelopeDue.carrier (stationPosition n) ≠ envelopeDue.carrier 8) ∧
        envelopeDue.mon.envelope.level + 2 * envelopeDue.cfg.envelopeMon.u < envelopeDue.cfg.envelopeMon.t) ∧
      { running with track.head.refill := some ⟨0, 1000⟩ }.awaitsInsert = false ∧
      { envelopeDue with line.state := .paused }.motion = false ∧
      { ready with track.head.refill := some ⟨0, 1000⟩ }.jobOpen = false ∧
      (e.NoSweep ∧ e.carrier 8 = some 0 ∧ e.setAt 0 = some (pieceSet 5) ∧ e.motion = true ∧ e.track.head.insert = none ∧
        e.track.head.pocket = .empty ∧ e.track.head.refill = none ∧
        e.mon.envelope.level + e.cfg.envelopeMon.u < e.cfg.envelopeMon.t ∧
        { e with mon.envelope := ⟨12, 0⟩ }.cfg.envelopeMon.t ≤ 12 + e.cfg.envelopeMon.u) := by
  unfold State.NoSweep State.Calm
  decide +kernel

theorem witness_ExitChecksRun :
    let s := carrying 10 (pieceSet 5)
    s.NoSweep ∧ s.carrier 10 = some 0 ∧ s.setAt 0 = some (pieceSet 5) ∧ s.motion = true ∧ (pieceSet 5).faults = 0 ∧
      (pieceSet 5).scan = none ∧ s.track.scan = none ∧ s.cfg.scaleEnabled = true ∧ (pieceSet 5).measured = none ∧ s.track.weigh = none ∧
      { s with track.scan := some ⟨0, 300⟩ }.track.scan ≠ none ∧ { s with track.weigh := some ⟨0, 800⟩ }.track.weigh ≠ none := by
  unfold State.NoSweep
  decide +kernel

theorem witness_TrackInputsTaken :
    let s : State := { running with track.zones := running.track.zones.set 3 { running.track.zones[3] with motion := true } }
    let x : JamZone := { s.track.zones[2] with motion := true, sensors := s.track.zones[2].sensors.set 3 ⟨true, some ⟨0, 1000⟩⟩ }
    let m : State := { carrying 11 assigned with track.index := some ⟨0, 1000⟩, track.zones := s.track.zones.set 2 x }
    let g : State := { running with sets.gate := .closed (some 15) }
    let p : State := withSet (pieceSet 5) { idle with sets.gate := .passing 0, coll.transit := .decided 0 true }
    idle.NoSweep ∧ idle.line.state.atRest = true ∧ (∀ z : Fin 4, idle.zoneMotion z = false) ∧
      (m.NoSweep ∧ m.Calm ∧ m.zoneMotion 2 = true ∧ m.track.zones[2].motion = true) ∧
      (g.sets.gate = .closed (some 15) ∧ g.sets.accumulator = none ∧ g.working = true ∧ g.track.zones[0].motion = false) ∧
      (p.line.state.atRest = true ∧ p.sets.gate = .passing 0 ∧ p.setAt 0 = some (pieceSet 5) ∧ p.coll.transit = .decided 0 true) := by
  unfold State.NoSweep State.Calm
  decide +kernel

/-- A set at P11 that awaits its bin. -/
def sorting : SetRecord := { pieceSet 5 with expected := some 2001 }

/-- The tray of group 3 with a count. -/
def tray (count : Nat) : Tray := ⟨4, 3, count, 900, .replicate 8 0, 1, 2, 0⟩

/-- RUNNING with a set at P11, its key's group 3, and bins set as given. -/
def presorting (bins : Vector Bin 11) : State :=
  { carrying 11 sorting with
    postal.scheme := Postal.powerOn.scheme.set 255 (some ⟨2, [0x31, 0x32, 0, 0, 0], 3⟩), presort.bins := bins }

/-- B10 OPEN for group 3. -/
def openBins (count : Nat) : Vector Bin 11 := (Vector.replicate 11 ⟨.free, none, 0⟩).set 9 ⟨.open (tray count), none, 0⟩

/-- Every bin SWAP but BR, whose state is given. -/
def fullBins (r : BinState) : Vector Bin 11 := (Vector.replicate 11 ⟨.swap, some 9, 0⟩).set 10 ⟨r, none, 0⟩

/-- Whether a bin is OPEN for group 3. -/
def groupOpen (s : State) (b : BinId) : Bool :=
  match (s.bin b).state with
  | .open y => y.group == 3
  | _ => false

theorem groupOpen_iff (s : State) (b : BinId) : groupOpen s b = true ↔ ∃ y, (s.bin b).state = .open y ∧ y.group = 3 := by
  unfold groupOpen
  split <;> simp_all

theorem witness_BinAssignedAtP11 :
    let j := presorting (openBins 41)
    let f := presorting (.replicate 11 ⟨.free, none, 0⟩)
    let r := presorting (fullBins .free)
    (j.motion = true ∧ j.carrier 11 = some 0 ∧ j.setAt 0 = some sorting ∧ sorting.faults = 0 ∧ sorting.bin = none ∧
        sorting.record = some (record 5) ∧ sorting.piece = some 5 ∧ lookupGroup j.postal.scheme (record 5).key = 3 ∧
        sorting.postageWeight = 2001 ∧ stepOf j.postal.steps 2001 = some 1) ∧
      (groupOpen j 9 = true ∧ (∀ a : BinId, a < 9 → groupOpen j a = false)) ∧
      ((f.bin 0).state = .free ∧ (∀ a : BinId, a.val < 10 → groupOpen f a = false)) ∧
      (∀ a : BinId, a.val < 10 → (r.bin a).state ≠ .free ∧ groupOpen r a = false) ∧ (r.bin 10).state ≠ .swap ∧
      ((presorting (fullBins .swap)).bin 10).state = .swap ∧
      (presorting (openBins (cfg.trayCount - 1))).cfg.trayCount = (tray (cfg.trayCount - 1)).count + 1 := by decide +kernel

theorem witness_BinEntryDelivers :
    let s : State := withSet assigned { running with track.transport := some 0, track.delivery := some ⟨0, 2000⟩ }
    s.NoSweep ∧ s.Calm ∧ s.track.transport = some 0 ∧ s.setAt 0 = some assigned ∧ assigned.bin = some 10 ∧ s.track.delivery ≠ none ∧
      s.carrier 11 = none ∧ (0 : Byte) ≠ BitVec.ofNat 8 ((10 : BinId).val + 1) := by
  unfold State.NoSweep State.Calm
  decide +kernel

theorem witness_BinClearFreesSwapBin :
    ((presorting (fullBins .swap)).bin 10).state = .swap ∧ ((presorting (fullBins .swap)).bin 10).onWay = 0 ∧
      ((presorting ((fullBins .swap).set 10 ⟨.swap, some 9, 1⟩)).bin 10).onWay ≠ 0 ∧ (running.bin 0).state ≠ .swap ∧
      (0 : Byte).toNat = 0 ∧ 11 < (12 : Byte).toNat := by decide +kernel

theorem witness_ClosedTrayListedAndPriced :
    ((presorting (openBins 41)).bin 9).state = .open (tray 41) ∧ running.reg.job = some ⟨7, 1, .sequence, 31, 3⟩ := by decide +kernel

theorem witness_TraysClosedAndFetchedByHost :
    let s : State := { running with presort.bins := openBins 41, postage.manifest := List.replicate 63 listed }
    s.link.held = none ∧ (s.bin 9).state = .open (tray 41) ∧
      s.unassigned + (if s.feeding then 1 else 0) < 64 - s.postage.manifest.length ∧
      64 - 63 ≤ { s with coll.transit := .feeding none [] ⟨0, 2000⟩ }.unassigned +
        (if { s with coll.transit := .feeding none [] ⟨0, 2000⟩ }.feeding then 1 else 0) ∧
      (s.bin 10).state = .free ∧ (0 : Byte).toNat = 0 ∧ 11 < (12 : Byte).toNat ∧ 1 ≤ (4 : Byte).toNat ∧ (4 : Byte).toNat ≤ 4 ∧
      4 < (5 : Byte).toNat := by decide +kernel

theorem witness_BlocksTestTheirConditions :
    running.NoSweep ∧ idle.line.state.atRest = true ∧ { running with line.state := .pausing }.line.state = .pausing ∧
      { running with line.state := .pausing }.notAtRest = noSections ∧
      { fed [] with line.state := .pausing }.notAtRest ≠ noSections := by
  unfold State.NoSweep
  decide +kernel

theorem witness_OpenJobOpens :
    let body : List Byte := jobBytes (some edgeJob)
    ready.link.held = none ∧ bodyLengthOk 0x20 body.length = true ∧ ready.line.state = .ready ∧ ready.line.interlock = .closed ∧
      parseJob ready.cfg body = some edgeJob ∧ ready.postal.steps.bind List.getLast? = some 5000 ∧ 5000 < ready.cfg.trayWeight ∧
      idle.line.state ≠ .ready ∧ { ready with line.interlock := .opened }.line.interlock = .opened ∧
      parseJob ready.cfg [0, 0, 0, 0, 1, 0, 0, 1] = none ∧
      { ready with postal.steps := none }.postal.steps.bind List.getLast? = none ∧
      { ready with plant.config := some { cfg with trayWeight := 10000 }, postal.steps := some [10000] }.cfg.trayWeight ≤ 10000 := by
  decide +kernel

theorem witness_StartPauseAndResume :
    let s : State := { idle with track.head.pocket := .staged }
    let p : State := { running with line.state := .paused, line.returnState := some .running }
    s.link.held = none ∧ s.line.state = .jobIdle ∧ s.line.key = .run ∧ (∀ z : Fin 4, s.track.zones[z].jammed = none) ∧ s.NoSweep ∧
      s.track.head.pocket ≠ .empty ∧ running.line.state ≠ .jobIdle ∧ { s with line.key := .setup }.line.key = .setup ∧
      (∃ z : Fin 4, { s with track.zones := s.track.zones.set 3 { s.track.zones[3] with jammed := some 0 } }.track.zones[z].jammed ≠ none) ∧
      running.link.held = none ∧ running.line.state = .running ∧ running.NoSweep ∧ p.link.held = none ∧ p.line.state = .paused ∧
      p.line.key = .run ∧ p.line.returnState = some .running ∧ ready.motion = false ∧ ready.line.state ≠ .pausing ∧
      ready.line.state ≠ .paused := by
  unfold State.NoSweep
  decide +kernel

theorem witness_StopLineAndEndJobRunOut :
    let h : State := withSet { blankSet with faults := faultMask .unattributed, received := 1 }
      { running with coll.state := .hunt, coll.current := some 0 }
    let p : State := { running with line.state := .paused }
    running.link.held = none ∧ running.line.state = .running ∧ running.coll.state ≠ .hunt ∧ h.link.held = none ∧
      h.line.state = .running ∧ h.coll.state = .hunt ∧ h.coll.current = some 0 ∧ p.line.state = .paused ∧ p.line.key = .run ∧
      { running with line.state := .runout, line.runoutTarget := .jobIdle }.line.state = .runout ∧
      ready.line.state ∈ [LineState.standby, .ready, .sweep, .faultStop, .interlock] ∧
      { p with line.key := .setup }.line.key = .setup ∧ idle.line.state = .jobIdle := by decide +kernel

theorem witness_EndJobSweeps :
    let s : State := { idle with presort.bins := openBins 41, postage.manifest := List.replicate 63 listed }
    let f : State := { idle with presort.bins := openBins 41, postage.manifest := List.replicate 64 listed }
    s.link.held = none ∧ s.line.state = .jobIdle ∧ s.postage.manifest.length + s.openBins.length = 64 ∧ f.link.held = none ∧
      f.line.state = .jobIdle ∧ f.postage.manifest.length = 64 ∧ f.openBins ≠ [] := by decide +kernel

theorem witness_AbortJobDiscards :
    let s : State := { idle with presort.bins := openBins 41, postage.manifest := List.replicate 63 listed }
    let f : State := { idle with presort.bins := openBins 41, postage.manifest := List.replicate 64 listed }
    s.link.held = none ∧ s.line.state.takesAbort = true ∧ s.openBins.length = 64 - s.postage.manifest.length ∧
      64 - f.postage.manifest.length < f.openBins.length ∧ running.line.state.takesAbort = false := by decide +kernel

/-- R170, R139: AbortJob with a piece at P11 whose tray holds it and another: the set is diverted first, and the tray that is left
closes with one piece. -/
theorem test_abortJob :
    let r : SetRecord := { pieceSet 5 with bin := some 9, tray := some 4, group := some 3, step := some 1, expected := some 900 }
    let s : State := { carrying 11 r with
      line.state := .paused, presort.bins := (openBins 2).set 9 ⟨.open (tray 2), none, 1⟩ }
    (out (.abortJob 1 []) s).postage.manifest.map (fun e => (e.tray, e.count, e.cause)) = [(4, 1, .abort)] ∧
      (out (.abortJob 1 []) s).link.held.map (fun h => h.reply.fields) = some [1, 1] ∧
      ((out (.abortJob 1 []) s).link.reports.map ReportEntry.report).head? =
        some (.pieceDiverted 1 .matched (some 5) (faultMask .aborted) .inPlace 1) := by decide +kernel

theorem witness_RecoverPauses :
    let s : State := withSet assigned { running with line.state := .faultStop, track.transport := some 0 }
    s.link.held = none ∧ s.line.state = .faultStop ∧ (∀ z : Fin 4, s.track.zones[z].jammed = none) ∧ s.track.transport = some 0 ∧
      s.setAt 0 = some assigned ∧ assigned.bin = some 10 ∧ assigned.piece = some 5 ∧ assigned.record = some (record 5) ∧
      { running with line.state := .faultStop }.track.transport = none ∧ running.line.state ≠ .faultStop ∧
      (∃ z : Fin 4, { s with track.zones := s.track.zones.set 3 { s.track.zones[3] with jammed := some 0 } }.track.zones[z].jammed ≠ none) := by
  decide +kernel

theorem witness_StationsEnabledAndDisabled :
    idle.link.held = none ∧ idle.line.state ≠ .standby ∧ idle.line.state ≠ .interlock ∧ (idle.station s6).state = .off ∧
      ({ idle with track.stations := idle.track.stations.set 5 { Station.reset with
          state := .tripped, seq := .running 2 ⟨0, 1000⟩ } }.station s6).seq = .running 2 ⟨0, 1000⟩ ∧
      (running.station s6).state = .ready ∧
      ({ running with track.stations := running.track.stations.set 5 dropping }.station s6).state = .dropping ∧
      State.reset.line.state = .standby ∧ State.reset.link.held = none := by decide +kernel

theorem witness_KeyAndGuardStopLine :
    let g : State := { running with line.state := .interlock, line.origin := some .jobIdle, line.interlock := .opened }
    running.line.state = .running ∧ running.NoSweep ∧ { fed [] with line.state := .pausing }.line.state = .pausing ∧
      { fed [] with line.state := .pausing }.notAtRest ≠ noSections ∧ idle.line.state.atRest = true ∧ running.jobOpen = true ∧
      running.motion = true ∧ ready.jobOpen = false ∧ ready.line.state.atRest = true ∧ g.line.state = .interlock ∧
      g.line.origin ≠ some .sweep ∧ { g with line.origin := some .sweep }.line.origin = some .sweep ∧ running.line.state ≠ .interlock := by
  unfold State.NoSweep
  decide +kernel

/-! ### The clauses on several records, on proving, on what is ignored and on the whole machine -/

/-- A record on the link, of two sheets, with no key. -/
def raw (piece sheets : Nat) : RawRecord := ⟨piece, sheets, 15, 0, 0, 0xFFFFFFFF⟩

/-- R27: of three records the second is refused; the first stands, and the reply gives the code, 1 accepted and a queue of 1. -/
theorem witness_LoadPiecesStopsAtRefusal :
    let xs := [raw 5 2, raw 6 25, raw 7 2]
    (idle.link.held = none ∧ 1 ≤ xs.length ∧ (∀ x ∈ xs, x.Fits) ∧ idle.line.state ∉ [LineState.standby, .ready, .sweep, .interlock]) ∧
      (1 ≤ (List.replicate 20 (raw 5 2)).length ∧ (List.replicate 20 (raw 5 2)).length ≤ 20 ∧ ∀ x ∈ List.replicate 20 (raw 5 2), x.Fits) ∧
      (result (out (.loadPieces 1 (xs.flatMap RawRecord.bytes)) idle) = some .badValue ∧
        (out (.loadPieces 1 (xs.flatMap RawRecord.bytes)) idle).link.held.map (fun h => h.reply.fields) = some [1, 1, 0, 0, 1]) ∧
      (ready.link.held = none ∧ bodyLengthOk 0x21 220 = true ∧ ready.line.state ∈ [LineState.standby, .ready, .sweep, .interlock]) := by
  decide +kernel

/-- R30: a queue that falls below the low mark by a void. -/
theorem witness_VoidRunsLow :
    let s : State := { stocked with plant.config := some { cfg with queueLow := 1 }, reg.lowArmed := true }
    s.link.held = none ∧ s.NoSweep ∧ s.jobOpen = true ∧ s.pieceState 5 = .held ∧ s.queuePosition 5 ≠ none ∧
      s.runsLow (s.reg.queue.length - 1) = true ∧
      (out (.voidPiece 1 (toBytes 3 5)) s).link.reports.map ReportEntry.report = [.queueLow 0 1] ∧
      (out (.voidPiece 1 (toBytes 3 5)) s).reg.lowArmed = false := by
  unfold State.NoSweep
  decide +kernel

/-- PROVING with one fault to go before proving fails, and one good piece before it passes. -/
def proving (s : State) : State :=
  { s with line.state := .proving, mon.proving := .active, mon.provingFault := cfg.provingM - 1, mon.provingGood := cfg.provingP - 1 }

/-- The set of piece 5, started in PROVING, with a fault that proving counts. -/
def failing : SetRecord := { pieceSet 5 with stage := .complete, provingStart := true, faults := faultMask .weightMismatch }

/-- R58, R60: a set diverted early, and one diverted late, fail proving, with and without a bundle open. -/
theorem witness_DivertFailsProving :
    let e : State := withSet failing (proving { running with sets.accumulator := some 0, sets.release := .early ⟨0, 1000⟩ })
    let l : State := withSet failing (proving { carrying 11 failing with track.index := some ⟨0, 1000⟩ })
    (e.sets.release = .early ⟨0, 1000⟩ ∧ e.sets.accumulator = some 0 ∧ e.setAt 0 = some failing ∧ failing.faults.toNat < 2 ^ 26 ∧
        e.ProvingCounts failing ∧
        e.mon.provingFault + 1 = e.cfg.provingM ∧ e.coll.current = none ∧ (out .releaseCompletion e).line.state ≠ .proving ∧
        (out .releaseCompletion e).mon.proving = .failed) ∧
      (l.track.index ≠ none ∧ l.carrier 11 = some 0 ∧ l.setAt 0 = some failing ∧ failing.bin = none ∧ l.ProvingCounts failing ∧
        l.line.state ∈ [LineState.proving, .running, .runout] ∧ (out .indexCompletion l).mon.proving = .failed) ∧
      { l with coll.state := .hunt, coll.current := some 1 }.sets.buffer ≠ some 1 := by
  unfold State.ProvingCounts
  decide +kernel

/-- The conditions of a delivery that passes proving. -/
theorem witness_DeliveryPassesProving :
    let r : SetRecord := { assigned with provingStart := true }
    let s : State := withSet r (proving { running with track.transport := some 0, track.delivery := some ⟨0, 2000⟩ })
    s.track.delivery ≠ none ∧ s.track.transport = some 0 ∧ s.setAt 0 = some r ∧ r.bin = some 10 ∧ s.ProvingCounts r ∧
      s.mon.provingGood + 1 = s.cfg.provingP ∧ (out (.binEntry 11) s).line.state = .running ∧
      (out (.binEntry 11) s).mon.proving = .passed := by
  unfold State.ProvingCounts
  decide +kernel

/-- What is ignored, with nothing outstanding anywhere: every completion and timeout of these statements leaves RUNNING as it is. -/
theorem witness_CompletionsIgnored :
    (running.sets.folder = .idle ∧ running.track.scan = none ∧ running.track.weigh = none ∧ running.track.head.insert = none ∧
        running.track.head.refill = none ∧ running.track.delivery = none ∧ (running.station s6).drop = none ∧ running.NoSweep) ∧
      ∀ c ∈ [Instr.moveCompletion, .foldCompletion, .dropCompletion s6 .good, .insertCompletion .good, .insertTimeout,
        .envelopeRefillCompletion .fail, .scanRecord (some 5), .weightRecord 9, .binEntry 11],
        out c running = out .foldCompletion running := by
  unfold State.NoSweep
  decide +kernel

/-- RUNNING with an insert outstanding, the ENVELOPE monitor at a level. -/
def inserting (level : Nat) : State :=
  { carrying 8 (pieceSet 5) with track.head.insert := some ⟨0, 800⟩, mon.envelope := ⟨level, 3⟩ }

/-- R111: an insert that is GOOD, one that fails, and one whose fault event trips the ENVELOPE monitor. -/
theorem witness_InsertCompletes :
    (∀ l ∈ [0, 12], (inserting l).NoSweep ∧ (inserting l).carrier 8 = some 0 ∧ (inserting l).setAt 0 = some (pieceSet 5) ∧
        (inserting l).track.head.insert ≠ none ∧ (inserting l).jobOpen = true) ∧
      (inserting 0).mon.envelope.level + (inserting 0).cfg.envelopeMon.u < (inserting 0).cfg.envelopeMon.t ∧
      (inserting 12).cfg.envelopeMon.t ≤ (inserting 12).mon.envelope.level + (inserting 12).cfg.envelopeMon.u ∧
      (out (.insertCompletion .good) (inserting 12)).mon.envelope = ⟨12, 4⟩ ∧
      (out (.insertCompletion .insertFail) (inserting 0)).mon.envelope = ⟨4, 3⟩ ∧
      (out .insertTimeout (inserting 12)).line.stopReason = some .envelopeMonitor := by
  unfold State.NoSweep
  decide +kernel

/-- Two entries of a scheme, one the longer: digits 1 and 12. -/
def scheme : Vector (Option SchemeEntry) 256 :=
  (Postal.powerOn.scheme.set 0 (some ⟨1, [0x31, 0, 0, 0, 0], 9⟩)).set 255 (some ⟨2, [0x31, 0x32, 0, 0, 0], 3⟩)

theorem scheme_cases {j : Fin 256} {e : SchemeEntry} (h : scheme[j] = some e) :
    (j = 0 ∧ e = ⟨1, [0x31, 0, 0, 0, 0], 9⟩) ∨ (j = 255 ∧ e = ⟨2, [0x31, 0x32, 0, 0, 0], 3⟩) := by
  simp only [scheme, Postal.powerOn, Fin.getElem_fin, Vector.getElem_set, Vector.getElem_replicate] at h
  split at h
  · exact .inr ⟨by omega, by simpa using h.symm⟩
  · split at h
    · exact .inl ⟨by omega, by simpa using h.symm⟩
    · simp at h

/-- R125: the scheme is in order, its longer entry matches the key 12345 and no longer one does, and none matches 54321. -/
theorem witness_SchemeLookup :
    SchemeOk scheme ∧ scheme[(255 : Fin 256)] = some ⟨2, [0x31, 0x32, 0, 0, 0], 3⟩ ∧
      SchemeEntry.Matches ⟨2, [0x31, 0x32, 0, 0, 0], 3⟩ 12345 ∧
      (∀ (k : Fin 256) y, scheme[k] = some y → y.Matches 12345 → y.len ≤ 2) ∧
      (∀ (k : Fin 256) y, scheme[k] = some y → ¬ y.Matches 54321) ∧ lookupGroup scheme (some 12345) = 3 := by
  refine ⟨⟨?_, ?_⟩, by decide +kernel, ?_, ?_, ?_, by decide +kernel⟩
  · intro j e h
    rcases scheme_cases h with ⟨-, rfl⟩ | ⟨-, rfl⟩ <;> decide
  · intro j k x y hx hy
    rcases scheme_cases hx with ⟨rfl, rfl⟩ | ⟨rfl, rfl⟩ <;> rcases scheme_cases hy with ⟨rfl, rfl⟩ | ⟨rfl, rfl⟩ <;> decide
  · unfold SchemeEntry.Matches; decide
  · intro k y h _
    rcases scheme_cases h with ⟨-, rfl⟩ | ⟨-, rfl⟩ <;> decide
  · intro k y h
    unfold SchemeEntry.Matches
    rcases scheme_cases h with ⟨-, rfl⟩ | ⟨-, rfl⟩ <;> decide

theorem witness_SchemeKept :
    let s : State := { ready with postal.scheme := scheme, pending := [.writeTable 1 [0x04, 0x00, 0, 0, 0, 0, 0, 0, 0, 0]] }
    step s = .next (outStep s) ∧ (outStep s).postal.scheme[(0 : Fin 256)] = none :=
  ⟨step_out (by decide +kernel), by decide +kernel⟩

/-- RUNNING with a set of piece 5 at P3, an open tray of one delivered piece, the exit clear, and one command waiting. -/
def placed : State :=
  { carrying 3 { pieceSet 5 with stage := .onTrack 3 } with
    presort.bins := (Vector.replicate 11 ⟨.free, none, 0⟩).set 9 ⟨.open ⟨4, 3, 1, 900, (Vector.replicate 8 0).set 0 1, 1, 1, 0⟩, none, 0⟩
    reg.counters.delivered := 1, pending := [.indexStart] }

theorem placed_setAt (i : Slot) : placed.setAt i = if i = 0 then some { pieceSet 5 with stage := .onTrack 3 } else none := by
  revert i; decide +kernel

theorem placed_carrier (p : Position) : placed.carrier p = if p = 3 then some 0 else none := by
  revert p; decide +kernel

theorem placed_open {b : BinId} {y : Tray} (h : (placed.bin b).state = .open y) :
    b = 9 ∧ y = ⟨4, 3, 1, 900, (Vector.replicate 8 0).set 0 1, 1, 1, 0⟩ := by
  have hb : ∀ b : BinId, (placed.bin b).state =
      if b = 9 then .open ⟨4, 3, 1, 900, (Vector.replicate 8 0).set 0 1, 1, 1, 0⟩ else .free := by decide +kernel
  rw [hb] at h
  split at h
  · next h9 => exact ⟨h9, by simpa using h.symm⟩
  · simp at h

theorem placed_places : placed.PlacesOk where
  accumulator i h := nomatch (show none = some i from h)
  release h := absurd rfl h
  folder i h := nomatch (show none = some i from h)
  buffer i h := nomatch (show none = some i from h)
  carrier p i h := by
    rw [placed_carrier] at h
    split at h
    · next h3 =>
      obtain rfl : 0 = i := by simpa using h
      exact ⟨_, (placed_setAt 0).trans (if_pos rfl), by rw [h3]⟩
    · simp at h
  transport i h := nomatch (show none = some i from h)
  current i h := nomatch (show none = some i from h)
  decided i c h := nomatch (show Transit.none = .decided i c from h)
  gate _ := rfl
  passing i h := nomatch (show SheetGate.closed none = .passing i from h)
  index h := absurd rfl h
  assigned i r h hb := by
    rw [placed_setAt] at h
    split at h
    · obtain rfl := Option.some.inj h
      exact absurd rfl hb
    · simp at h
  rest h := absurd h (by decide +kernel)

theorem placed_trays : placed.TraysOk where
  config _ := by decide +kernel
  capacity c h := by
    obtain rfl : cfg = c := Option.some.inj h
    decide
  steps b h := by
    obtain rfl : [2000, 3500, 5000] = b := Option.some.inj h
    decide
  noJob h := absurd h (by decide +kernel)
  sweep k h := nomatch (show none = some k from h)
  group b y h := by
    obtain ⟨rfl, rfl⟩ := placed_open h
    decide
  oneGroup a b y z ha hb _ := by rw [(placed_open ha).1, (placed_open hb).1]
  count b y h := by
    obtain ⟨-, rfl⟩ := placed_open h
    decide +kernel
  weight b y h := by
    obtain ⟨-, rfl⟩ := placed_open h
    decide +kernel
  onWay := by decide +kernel
  balance _ _ _ := by decide +kernel

/-- The premises of the machine-wide statements on places, trays, the manifest and the jam timers, in one state that a step leaves. -/
theorem witness_PlacesTraysAndTimersKept :
    placed.ReturnOk ∧ placed.PlacesOk ∧ placed.TraysOk ∧ placed.ManifestOk ∧ placed.JamOk ∧ step placed = .next (outStep placed) ∧
      (outStep placed).track.index.isSome = true ∧ (outStep placed).track.zones[2].motion = true := by
  refine ⟨fun x h => ?_, placed_places, placed_trays, ?_, ?_, step_out (by decide +kernel), by decide +kernel, by decide +kernel⟩
  · rw [show placed.line.returnState = none from rfl] at h; cases h
  · unfold State.ManifestOk; decide +kernel
  · unfold State.JamOk; decide +kernel

/-- R138: two OPEN bins with room in the manifest for one: B10 closes, and the sweep waits at BR. -/
theorem witness_SweepWaits :
    let s : State := { idle with
      presort.bins := (openBins 41).set 10 ⟨.open ⟨5, 255, 1, 9, .replicate 8 0, 1, 2, 0⟩, none, 0⟩
      postage.manifest := List.replicate 63 listed }
    s.link.held = none ∧ s.line.state = .jobIdle ∧ s.openBins = [9] ++ (10 : BinId) :: [] ∧
      s.postage.manifest.length + [(9 : BinId)].length = 64 ∧ (out (.endJob 1 []) s).presort.sweepPosition = some 10 ∧
      (out (.endJob 1 []) s).line.state = .sweep := by decide +kernel

/-- R152, R153: AbortJob with a piece at P11 whose tray has closed. The tray's entry is corrected while it is in the manifest, and the
host is told when it has left. -/
theorem witness_AbortWithdrawsFromManifest :
    let r : SetRecord := { pieceSet 5 with bin := some 9, tray := some 4, group := some 3, step := some 1, expected := some 900 }
    let s : State := { carrying 11 r with line.state := .paused, presort.bins := (openBins 2).set 9 ⟨.swap, some 4, 1⟩ }
    let l : State := { s with postage.manifest := [running.closeEntry 9 (tray 2) .count] }
    (l.link.held = none ∧ l.line.state.takesAbort = true ∧ l.openBins.length ≤ 64 - l.postage.manifest.length ∧
        s.openBins.length ≤ 64 - s.postage.manifest.length) ∧
      (out (.abortJob 1 []) l).postage.manifest.map (fun e => (e.tray, e.count, e.withdrawn)) = [(4, 1, 1)] ∧
      ((out (.abortJob 1 []) s).link.reports.map ReportEntry.report).head? =
        some (.trayClosed 4 9 3 0 .mixed 0 .withdraw (some 1) (some 900)) := by decide +kernel

/-! ### What a stop cuts off, the events of results, and what is refused -/

/-- RUNNING with a feed, a release forward, a move of plate 1, a drop at S1 with a disable pending and one at S6, an insert and a
scan outstanding, each with a set, and a set at rest at P3. -/
def busy : State :=
  { running with
    reg.pool := .ofFn fun i : Fin 16 => if i.val < 8 then some { pieceSet 5 with stage := .complete } else none
    coll.state := .inSet, coll.current := some 6, coll.transit := .feeding (some 3) [] ⟨0, 2000⟩
    sets.accumulator := some 0, sets.release := .forward ⟨0, 1000⟩, sets.folderSet := some 1, sets.folder := .moving (some 900) none ⟨0, 3000⟩
    sets.plate1 := some 700, sets.plate2 := some 800
    track := { running.track with
      carriers := ((((running.track.carriers.set 1 (some 2)).set 3 (some 7)).set 6 (some 3)).set 8 (some 4)).set 10 (some 5)
      stations := (running.track.stations.set 0 { Station.reset with state := .dropping, drop := some ⟨0, 500⟩, pendingDisable := true }).set 5
        { Station.reset with state := .dropping, drop := some ⟨0, 500⟩ }
      head.insert := some ⟨0, 800⟩, scan := some ⟨0, 300⟩ } }

/-- R22, R95, R121: a move timeout stops the line. Each set but the one at rest is DISTURBED, and every operation is cut off as the
tables say. -/
theorem test_stopCutsOff :
    let t := out .moveTimeout busy
    ((List.finRange 8).map fun i => (t.reg.pool[i.val]?.join).map SetRecord.faults) =
        List.replicate 7 (some (faultMask .disturbed)) ++ [some 0] ∧
      t.coll.transit = .none ∧ t.coll.closedTag = some 3 ∧ t.sets.release = .pending ∧ t.sets.folder = .waiting ∧
      t.sets.plate1 = none ∧ t.sets.plate2 = some 800 ∧ (t.station 0).state = .off ∧ (t.station 0).seq = .none ∧
      (t.station 5).state = .refilling ∧ (t.station 5).seq = .waiting 1 ∧ t.track.head.pocket = .refilling ∧
      t.track.head.insert = none ∧ t.track.scan = none ∧
      t.link.reports.map ReportEntry.report =
        [.stateChange .faultStop .running .moveTimeout, .stationChange 0 .dropping .off .host] := by decide +kernel

theorem witness_TimeoutsCutOff :
    busy.motion = true ∧ busy.sets.folder = .moving (some 900) none ⟨0, 3000⟩ ∧ busy.releasing = true ∧
      (folding (.folding ⟨0, 1500⟩)).sets.folder = .folding ⟨0, 1500⟩ ∧ { busy with line.state := .pausing }.line.state = .pausing ∧
      { busy with track.index := some ⟨0, 1000⟩ }.track.index ≠ none ∧ { busy with track.weigh := some ⟨0, 800⟩ }.track.weigh ≠ none ∧
      { busy with track.delivery := some ⟨0, 2000⟩ }.track.delivery ≠ none ∧ idle.motion = false ∧ idle.line.state ≠ .pausing ∧
      (∃ z k : Fin 4, ({ busy with track.zones := busy.track.zones.map fun z =>
        { z with sensors := z.sensors.map fun k => { k with timer := some ⟨0, 500⟩ } } } : State).track.zones[z].sensors[k].timer ≠ none) ∧
      busy.jobOpen = true ∧ busy.line.state ≠ .interlock := by decide +kernel

/-- R121: the guard opens in mid-index: the sets on the carriers and the one in the buffer are DISTURBED. -/
theorem test_guardCutsOffIndex :
    let s : State := { carrying 3 (pieceSet 5) with
      sets.buffer := some 9, track.index := some ⟨0, 1000⟩, reg.pool := (carrying 3 (pieceSet 5)).reg.pool.set 9 (some (pieceSet 6)) }
    let t := out .interlockOpen s
    t.track.index = none ∧ t.carrier 3 = some 0 ∧ t.sets.buffer = some 9 ∧
      (t.setAt 0).map SetRecord.faults = some (faultMask .disturbed) ∧ (t.setAt 9).map SetRecord.faults = some (faultMask .disturbed) := by
  decide +kernel

/-- RUNNING with a drop outstanding at S6, the station's trip action and its monitor's level given. -/
def dropDue (trip : TripAction) (level : Nat) : State :=
  { carrying 6 { pieceSet 5 with stationsNeeded := 32 } with
    track.stations := running.track.stations.set 5 dropping
    plant.stations := running.plant.stations.set 5 { running.plant.stations[5] with trip }
    mon.stations := running.mon.stations.set 5 ⟨level, 3⟩ }

/-- R50, R51, R53, R107: a drop that is GOOD, one that misses, and two whose fault event trips the station's monitor (4, 50, 16). -/
theorem witness_DropEvents :
    (∀ l ∈ [0, 12], (dropDue .stop l).NoSweep ∧ (dropDue .stop l).carrier (stationPosition s6) = some 0 ∧
        ((dropDue .stop l).station s6).drop ≠ none ∧ ((dropDue .stop l).station s6).state = .dropping ∧ (dropDue .stop l).jobOpen = true) ∧
      (out (.dropCompletion s6 .good) (dropDue .stop 12)).mon.stations[5] = ⟨12, 4⟩ ∧
      (out (.dropTimeout s6) (dropDue .stop 0)).mon.stations[5] = ⟨4, 3⟩ ∧
      (out (.dropCompletion s6 .double) (dropDue .stop 12)).line.stopReason = some (.stationMonitor s6) ∧
      ((out (.dropCompletion s6 .double) (dropDue .disable 12)).link.reports.map ReportEntry.report).take 2 =
        [.monitorTrip (.station s6) .insertDouble 16 ⟨4, 50, 16⟩ .disable .disabled (some 5), .stationChange s6 .dropping .tripped .trip] := by
  unfold State.NoSweep
  decide +kernel

/-- RUNNING with a scan outstanding, the EXIT monitor at a level. -/
def scanDue (level : Nat) : State := { carrying 10 (pieceSet 5) with track.scan := some ⟨0, 300⟩, mon.exit := ⟨level, 3⟩ }

/-- R113, R50, R51, R53: a scan that reads the piece, one that reads another, and one without a read that trips the EXIT monitor. -/
theorem witness_ScanEvents :
    (∀ l ∈ [0, 12], (scanDue l).NoSweep ∧ (scanDue l).carrier 10 = some 0 ∧ (scanDue l).setAt 0 = some (pieceSet 5) ∧
        (scanDue l).track.scan ≠ none ∧ (scanDue l).jobOpen = true) ∧
      (out (.scanRecord (some 5)) (scanDue 12)).mon.exit = ⟨12, 4⟩ ∧ (out (.scanRecord (some 6)) (scanDue 0)).mon.exit = ⟨4, 3⟩ ∧
      (out .scanTimeout (scanDue 12)).line.stopReason = some .exitMonitor := by
  unfold State.NoSweep
  decide +kernel

/-- R40, R41, R109, R149: requests refused for their state, their piece number, their station, their action and their mode. -/
theorem witness_RequestsRefused :
    (ready.link.held = none ∧ ready.jobOpen = false ∧ idle.link.held = none ∧ idle.jobOpen = true ∧ idle.reg.base ≠ 0) ∧
      (out (.voidPiece 1 [0, 0, 5]) ready).link.held.map Held.reply = some ⟨.wrongState, [0xFF, 0, 0, 0]⟩ ∧
      (out (.voidPiece 1 [0, 0, 0]) idle).link.held.map Held.reply = some ⟨.badValue, [0xFF, 0, 0, 1]⟩ ∧
      result (out (.releaseStray 1 [0, 2]) ready) = some .wrongState ∧
      (∀ c ∈ [Instr.stationControlEnable 1 [7, 0], .stationControlDisable 1 [0, 1]],
        (out c idle).link.held.map Held.reply = some ⟨.badValue, [0xFF]⟩ ∧ result (out c State.reset) = some .wrongState) ∧
      result (out (.stationControlEnable 1 [6, 2]) idle) = some .badValue ∧
      result (out (.fetchManifestNext 1 [2, 1]) idle) = some .badValue := by decide +kernel

/-- The numbers of the Configure of `cfg`. -/
def numbers : List Nat := configValues cfg

/-- R176, R177: numbers in range, a marker where there is no default, a scale value of 2, and a sheet length past its range. -/
theorem witness_ConfigureValues :
    let body := fun vs => (List.zipWith (fun row v => toBytes row.1 v) configTable vs).flatten
    (∀ vs ∈ [numbers, numbers.set 0 65535, numbers.set 10 2, numbers.set 0 5000, numbers.set 46 65535],
        List.Forall₂ (fun row v => v < 256 ^ row.1) configTable vs) ∧
      configTable.length = 47 ∧ ready.plantWritable = true ∧
      result (out (.configure 1 (body numbers)) ready) = some .ok ∧
      result (out (.configure 1 (body (numbers.set 0 65535))) ready) = some .badValue ∧
      result (out (.configure 1 (body (numbers.set 10 2))) ready) = some .badValue ∧
      result (out (.configure 1 (body (numbers.set 0 5000))) ready) = some .adjusted ∧
      (configStored (numbers.set 0 5000)).getD 0 0 = 4320 ∧ (configStored (numbers.set 46 65535)).getD 46 0 = 50 := by
  refine ⟨?_, by decide +kernel, by decide +kernel, by decide +kernel, by decide +kernel, by decide +kernel, by decide +kernel,
    by decide +kernel, by decide +kernel⟩
  intro vs h
  rw [List.forall₂_iff_zip]
  refine ⟨?_, fun {a b} hab => ?_⟩
  · revert vs; decide +kernel
  · have all : ∀ vs ∈ [numbers, numbers.set 0 65535, numbers.set 10 2, numbers.set 0 5000, numbers.set 46 65535],
        ∀ x ∈ configTable.zip vs, x.2 < 256 ^ x.1.1 := by decide +kernel
    exact all vs h (a, b) hab

/-- R63, R103, R124, R126, R141: entries refused and entries taken, with the table written through WriteTable. -/
theorem witness_EntryValues :
    (∀ x ∈ [(0x01, 0x06, (stationBytes edgeStation).set 9 2), (0x02, 0x0F, [0x40]), (0x03, 0x00, (planBytes (some edgePlan)).set 2 0xFF),
        (0x04, 0x09, (schemeBytes (some entry)).set 2 0x2F), (0x05, 0xFE, [0x02]), (0x06, 0x00, (stepsBytes (some [5, 6])).set 4 5)],
      result (out (.writeTable 1 (x.1 :: x.2.1 :: x.2.2)) ready) = some Result.badValue) ∧
    ∀ x ∈ [(0x01, 0x06, stationBytes edgeStation), (0x02, 0x0F, [0x3F]), (0x03, 0x00, planBytes (some edgePlan)),
        (0x04, 0x09, schemeBytes (some entry)), (0x05, 0xFE, [0x01]), (0x06, 0x00, stepsBytes (some [5, 6])),
        (0x08, 0x00, [0, 1, 0, 1])],
      result (out (.writeTable 1 (x.1 :: x.2.1 :: x.2.2)) ready) = some Result.ok := by decide +kernel

/-- R25, R158: a filter with a range from 0 and one in order, and jobs with a field outside its range and at the ends of them. -/
theorem witness_FilterAndJobValues :
    (∃ k : Fin 4, (#v[⟨0, 1, 1⟩, ⟨1, 1, 16777215⟩, ⟨0, 1, 1⟩, ⟨0, 0, 9⟩] : Vector RawRange 4)[k].Refused) ∧
      (∀ k : Fin 4, ¬ (Vector.replicate 4 (⟨1, 5, 5⟩ : RawRange))[k].Refused) ∧ ready.line.state ≠ .standby ∧
      ready.line.interlock = .closed ∧
      (∀ x ∈ ([⟨0, 1, 0, 31, 1⟩, ⟨1, 0, 0, 31, 1⟩, ⟨1, 1, 2, 31, 1⟩, ⟨1, 1, 1, 32, 1⟩, ⟨1, 1, 1, 31, 17⟩] : List RawJob),
        x.Fits ∧ x.Refused ∧ result (out (.openJob 1 x.bytes) ready) = some .badValue) ∧
      (∀ x ∈ ([⟨65535, 16777215, 1, 255, 255⟩, ⟨1, 1, 0, 0, 16⟩] : List RawJob),
        x.Fits ∧ ¬ x.Refused ∧ result (out (.openJob 1 x.bytes) ready) = some .ok) := by
  unfold RawRange.Refused
  decide +kernel

end Sys2Proof.Tests
end

section
namespace Sys2Proof.Machine

variable {s : State}

@[simp] theorem watchZones_notAtRest (s : State) : (watchZones s).notAtRest = s.notAtRest := rfl

/-- R164: a pausing line with every section at rest pauses. -/
theorem pauseAct_rested (h : s.line.state = .pausing) (r : s.notAtRest = noSections) :
    pauseAct s = enterState .paused .pauseDone { s with line.pendingPause := noSections } := by
  rw [pauseAct, if_pos h, if_pos r]

/-- R164: a pausing line with a section not at rest keeps it pending. -/
theorem pauseAct_pending (h : s.line.state = .pausing) (r : s.notAtRest ≠ noSections) :
    pauseAct s = { s with line.pendingPause := s.notAtRest } := by
  rw [pauseAct, if_pos h, if_neg r]

/-- R164: what `react` makes of a pausing line with every section at rest. -/
theorem react_pausing_rested (h : s.line.state = .pausing) (r : s.notAtRest = noSections) :
    react s = refresh (enterState .paused .pauseDone { watchZones s with line.pendingPause := noSections }) := by
  rw [react_pausing h, pauseAct_rested (s := watchZones s) h r]

/-- R164: what `react` makes of a pausing line with a section not at rest. -/
theorem react_pausing_pending (h : s.line.state = .pausing) (r : s.notAtRest ≠ noSections) :
    react s = refresh { watchZones s with line.pendingPause := s.notAtRest } := by
  rw [react_pausing h, pauseAct_pending (s := watchZones s) h r]; rfl

/-- Settles O52, by the views that every block's test keeps and the one test that moves a pausing line. -/
theorem blocksTestTheirConditions : Obligations.BlocksTestTheirConditions := by
  intro s
  refine ⟨react_fixed s, react_flow s, fun h => ?_, fun h => ⟨fun r => ?_, fun r => ?_, ?_⟩⟩
  · rw [react_atRest h]; rfl
  · rw [react_pausing_rested h r]
    refine ⟨rfl, ?_⟩
    simp only [refresh_link, enterState]
    rw [← h]; rfl
  · rw [react_pausing_pending h r]
    exact ⟨rfl, rfl⟩
  · by_cases r : s.notAtRest = noSections
    · rw [react_pausing_rested h r]; exact ⟨rfl, rfl⟩
    · rw [react_pausing_pending h r]; exact ⟨rfl, rfl⟩

end Sys2Proof.Machine
end

section
namespace Sys2Proof.Machine

variable {s : State}

/-! ### Feeding (R5, R6) -/

/-- R5 condition 1: the line and the collation let a sheet be fed. -/
def State.feedLineOk (s : State) : Prop :=
  ((s.line.state = .proving ∨ s.line.state = .running) ∧ s.coll.state ≠ .idle) ∨
    (s.line.state = .runout ∧ s.coll.state = .inSet)

/-- R5: with every condition but the queue's met, only an empty queue can hold the feed. -/
theorem feedBlock_of_ready (line : s.feedLineOk) (sheet : s.coll.transit = .none)
    (acc : s.coll.state = .setStart ∨ (s.coll.state = .hunt ∧ s.coll.current = none) → s.sets.accumulator = none)
    (pool : s.setsInFlight + 1 ≤ Config.poolSize) (res : s.reserve = true) :
    s.feedBlock = if (s.coll.state = .setStart ∨ s.coll.state = .hunt) ∧ s.reg.queue = [] then .queue else .none := by
  have ha : ((decide (s.coll.state = .setStart) || (decide (s.coll.state = .hunt) && s.coll.current.isNone)) &&
      s.sets.accumulator.isSome) = false := by
    by_cases hc : s.coll.state = .setStart ∨ (s.coll.state = .hunt ∧ s.coll.current = none)
    · simp [acc hc]
    · have : (decide (s.coll.state = .setStart) || (decide (s.coll.state = .hunt) && s.coll.current.isNone)) = false := by
        simpa only [Bool.eq_false_iff, ne_eq, Bool.or_eq_true, Bool.and_eq_true, decide_eq_true_eq,
          Option.isNone_iff_eq_none] using hc
      rw [this, Bool.false_and]
  unfold State.feedBlock
  rcases line with ⟨h | h, c⟩ | ⟨h, c⟩ <;> simp only [h, ha, sheet, pool, res]
  · simp [c]
  · simp [c]
  · simp [c]

/-- R5: a feed that no condition holds is requested. -/
theorem feedAct_none (h : s.feedBlock = .none) : feedAct s =
    { s with coll.transit := .feeding none [] (s.timer s.cfg.feedTime), coll.starvationArmed := true } := by
  rw [feedAct, h]

/-- R6: a feed held for the queue alone is reported while the report is armed. -/
theorem feedAct_queue (h : s.feedBlock = .queue) : feedAct s =
    if s.coll.starvationArmed then
      queueReport (.queueStarved s.reg.base s.setsInFlight) { s with coll.starvationArmed := false }
    else s := by
  rw [feedAct, h]

/-- The feed hold does not depend on the starvation report nor on the jam timers. -/
theorem refresh_feedHold_of_queue {t : State} (h : t.feedBlock = .queue) (f : t.feeding = false) :
    (refresh t).coll.feedHold = .queue := by
  have : (refresh t).coll.feedHold = if t.feeding then .none else t.feedBlock := rfl
  rw [this, f, h]; rfl

/-- Settles O27, by what the feed block is when every condition holds and when the queue alone is empty. -/
theorem feedRequestedWhenReady : Obligations.FeedRequestedWhenReady := by
  intro s line sheet acc pool diverts manifest
  have res : s.reserve = true := by
    simp only [State.reserve, Bool.and_eq_true, decide_eq_true_eq]
    exact ⟨diverts, manifest⟩
  have block := feedBlock_of_ready line sheet acc pool res
  have notIdle : s.coll.state ≠ .idle := by
    rcases line with ⟨-, c⟩ | ⟨-, c⟩
    · exact c
    · rw [c]; decide
  refine ⟨refresh (feedAct s), rfl, ?_⟩
  by_cases starved : (s.coll.state = .setStart ∨ s.coll.state = .hunt) ∧ s.reg.queue = []
  · rw [if_pos starved] at block
    have quiet : s.feeding = false := by rw [State.feeding, sheet]
    have notInSet : ¬ (s.coll.state = .inSet ∨ s.reg.queue ≠ []) := by
      rintro (h | h)
      · rcases starved.1 with e | e <;> simp [e] at h
      · exact h starved.2
    rw [feedAct_queue block]
    cases armed : s.coll.starvationArmed with
    | true =>
      refine ⟨rfl, fun h => absurd h notInSet, fun _ _ => ⟨?_, rfl⟩⟩
      have hold := refresh_feedHold_of_queue (t := queueReport (.queueStarved s.reg.base s.setsInFlight)
        { s with coll.starvationArmed := false }) block quiet
      exact congrArg (fun x => { s.coll with starvationArmed := false, feedHold := x }) hold
    | false =>
      refine ⟨rfl, fun h => absurd h notInSet, fun _ _ => ⟨?_, rfl⟩⟩
      have hold := refresh_feedHold_of_queue (t := s) block quiet
      refine (congrArg (fun x => { s.coll with feedHold := x }) hold).trans ?_
      rw [← armed]
  · rw [if_neg starved] at block
    rw [feedAct_none block]
    refine ⟨rfl, fun _ => ⟨rfl, rfl⟩, fun h1 h2 => absurd ⟨?_, h2⟩ starved⟩
    cases h : s.coll.state <;> simp [h] at h1 notIdle ⊢

end Sys2Proof.Machine
end

section
namespace Sys2Proof.Machine

variable {s : State}

/-! ### Reads (R1, R2) -/

/-- R1: a tag belongs to the sheet in transit when it is the one fixed, or, with none fixed, is not the closed tag. -/
theorem takesTag_iff {fixed : Option Byte} {tag : Byte} :
    s.takesTag fixed tag = true ↔ fixed = some tag ∨ (fixed = none ∧ s.coll.closedTag ≠ some tag) := by
  cases fixed <;> simp [State.takesTag]

/-- R1: a tag that does not belong to the sheet in transit. -/
theorem takesTag_eq_false {fixed : Option Byte} {tag : Byte}
    (h : (∃ x, fixed = some x ∧ x ≠ tag) ∨ (fixed = none ∧ s.coll.closedTag = some tag)) : s.takesTag fixed tag = false := by
  rcases h with ⟨x, rfl, hx⟩ | ⟨rfl, hc⟩
  · simpa [State.takesTag] using hx
  · simp [State.takesTag, hc]

/-- R2: the reads kept after a record. -/
def State.readsAfter (s : State) (mark : Option RawMark) (reads : List Mark) : List Mark :=
  match mark.bind markOfRaw with
  | some m => keepRead s.compareMask reads m
  | none => reads

/-- R1: a record of the sheet in transit fixes the tag, and its read may be kept. -/
theorem takeRead_taken {tag : Byte} {mark : Option RawMark} {fixed : Option Byte} {reads : List Mark} {timer : Timer}
    (feeding : s.coll.transit = .feeding fixed reads timer) (active : s.coll.state ≠ .idle)
    (own : s.takesTag fixed tag = true) :
    takeRead tag mark s = { s with coll.transit := .feeding (some tag) (s.readsAfter mark reads) timer } := by
  simp only [takeRead, feeding, own, bne_iff_ne.2 active, Bool.and_self, if_true]; rfl

/-- R1: a record of another tag is ignored. -/
theorem takeRead_foreign {tag : Byte} {mark : Option RawMark} {fixed : Option Byte} {reads : List Mark} {timer : Timer}
    (feeding : s.coll.transit = .feeding fixed reads timer) (other : s.takesTag fixed tag = false) :
    takeRead tag mark s = s := by
  simp only [takeRead, feeding, other, Bool.and_false, Bool.false_eq_true, if_false]

/-- R1: a record taken while no feed is outstanding is ignored. -/
theorem takeRead_quiet {tag : Byte} {mark : Option RawMark} (h : s.feeding = false) : takeRead tag mark s = s := by
  unfold takeRead
  unfold State.feeding at h
  split
  · rename_i e; simp [e] at h
  · rfl

/-- A record writes the sheet in transit alone. -/
theorem takeRead_frame (tag : Byte) (mark : Option RawMark) (s : State) :
    ∃ x, takeRead tag mark s = { s with coll.transit := x } := by
  unfold takeRead
  split
  · split
    · exact ⟨_, rfl⟩
    · exact ⟨_, rfl⟩
  · exact ⟨_, rfl⟩

/-- A write of the sheet in transit leaves the views. -/
theorem transit_fixed (x : Transit) : ({ s with coll.transit := x } : State).fixed = s.fixed := rfl

theorem transit_flow (x : Transit) : ({ s with coll.transit := x } : State).flow = s.flow := rfl

/-- R2: a raw mark that a sheet can have is the mark it spells. -/
theorem markOfRaw_some {raw : RawMark} (piece : raw.piece ≠ 0) (index : 1 ≤ raw.index.toNat ∧ raw.index.toNat ≤ 31)
    (count : 1 ≤ raw.count.toNat ∧ raw.count.toNat ≤ 31) (wrap : raw.wrap.toNat ≤ 7) :
    markOfRaw raw = some ⟨raw.job.toNat, raw.piece.toNat, raw.index.toNat, raw.count.toNat, raw.wrap.toNat⟩ := by
  have hi : raw.index ≠ 0 := fun e => by simp [e] at index
  have hc : raw.count ≠ 0 := fun e => by simp [e] at count
  rw [markOfRaw, if_neg]
  simpa [index.2, count.2, wrap] using And.intro (And.intro piece hi) hc

/-- R2: a raw mark with a field that no sheet can have is taken as UNREADABLE. -/
theorem markOfRaw_none {raw : RawMark} (h : raw.piece = 0 ∨ raw.index = 0 ∨ raw.count = 0 ∨ 7 < raw.wrap.toNat) :
    markOfRaw raw = none := by
  rw [markOfRaw, if_pos]
  rcases h with h | h | h | h <;> simp [h]

/-- R1: a GOOD read is kept in the next of four places unless it agrees with a kept one. -/
theorem keepRead_eq (mask : Mask) (reads : List Mark) (m : Mark) : keepRead mask reads m =
    if (∃ k ∈ reads, marksAgree mask m k = true) ∨ 4 ≤ reads.length then reads else reads ++ [m] := by
  unfold keepRead
  by_cases h : ∃ k ∈ reads, marksAgree mask m k = true
  · rw [if_pos (by simpa using h), if_pos (.inl h)]
  · rw [if_neg (by simpa using h)]
    by_cases l : reads.length < Config.maxReads
    · rw [if_pos l, if_neg (by simp only [Config.maxReads] at l; exact not_or.2 ⟨h, by omega⟩)]
    · rw [if_neg l, if_pos (by simp only [Config.maxReads] at l; exact .inr (by omega))]

/-- Settles O28, by the three courses of a READ record: taken, foreign, or with no feed outstanding. -/
theorem readsKept : Obligations.ReadsKept := by
  intro tag mark s calm quiet
  obtain ⟨x, hx⟩ := takeRead_frame tag mark s
  have quiet' : (takeRead tag mark s).NoSweep := by rw [hx]; exact quiet
  have calm' : (takeRead tag mark s).Calm := by rw [hx]; exact calm
  have starts := react_starts calm' quiet'
  refine ⟨react (takeRead tag mark s), rfl, ?_, ?_, ?_, ?_⟩
  · rw [react_fixed, hx, transit_fixed]
  · rw [react_flow _ quiet', hx, transit_flow]
  · intro i closes decided
    have same : takeRead tag mark s = s := takeRead_quiet (by rw [State.feeding, decided])
    rw [same] at starts ⊢
    exact starts.transit (by simp [decided])
  · intro fixed reads timer feeding active
    refine ⟨fun own => ?_, fun other => ?_⟩
    · have taken := takeRead_taken (mark := mark) feeding active (takesTag_iff.2 own)
      have kept : (react (takeRead tag mark s)).coll.transit = .feeding (some tag) (s.readsAfter mark reads) timer := by
        rw [starts.transit (by rw [taken]; exact Transit.noConfusion), taken]
      rw [kept]
      refine ⟨?_, ?_⟩
      · rintro raw rfl ⟨piece, i1, i2, c1, c2, wrap⟩ m rfl
        simp only [State.readsAfter, Option.bind_some, markOfRaw_some piece ⟨i1, i2⟩ ⟨c1, c2⟩ wrap, keepRead_eq]
      · rintro (rfl | ⟨raw, rfl, bad⟩)
        · rfl
        · simp only [State.readsAfter, Option.bind_some, markOfRaw_none bad]
    · have same : takeRead tag mark s = s := takeRead_foreign feeding (takesTag_eq_false other)
      rw [same] at starts ⊢
      exact starts.transit (by simp [feeding])

end Sys2Proof.Machine
end

section
namespace Sys2Proof.Machine

/-! ### Fields of a body -/

/-- A body's first field, with others after it. -/
theorem fieldAt_head {w n : Nat} {rest : List Byte} (h : n < 256 ^ w) : fieldAt (toBytes w n ++ rest) 0 w = n := by
  rw [fieldAt_zero (toBytes_length w n), ofBytes_toBytes h]

/-- A body's last field. -/
theorem fieldAt_last {w n : Nat} (h : n < 256 ^ w) : fieldAt (toBytes w n) 0 w = n := by
  simpa using fieldAt_head (rest := []) h

/-- A field after a body's first. -/
theorem fieldAt_skip {w n o v : Nat} {rest : List Byte} (h : w ≤ o) :
    fieldAt (toBytes w n ++ rest) o v = fieldAt rest (o - w) v := by
  rw [fieldAt_append (by simpa using h), toBytes_length]

/-- A body after its first field. -/
theorem drop_toBytes {w n o : Nat} {rest : List Byte} (h : w ≤ o) : (toBytes w n ++ rest).drop o = rest.drop (o - w) := by
  rw [List.drop_append, toBytes_length, List.drop_eq_nil_of_le (by simpa using h), List.nil_append]

theorem boolByte_eq (b : Bool) : boolByte b = toBytes 1 b.toNat := by cases b <;> rfl

/-- A field that may be absent reads as the greatest number of its width. -/
theorem fieldAt_opt {w : Nat} {x : Option Nat} (h : ∀ n, x = some n → n < 256 ^ w) :
    fieldAt (optBytes w x) 0 w = x.getD (256 ^ w - 1) := by
  cases x with
  | none =>
    have := fieldAt_zero (b := []) (absentBytes_length w)
    rw [List.append_nil, ofBytes_absentBytes] at this
    exact this
  | some n => exact fieldAt_last (h n rfl)

theorem clampTo_of_mem {lo hi v : Nat} (h : lo ≤ v) (g : v ≤ hi) : clampTo lo hi v = v := by unfold clampTo; omega

theorem outside_of_mem {lo hi v : Nat} (h : lo ≤ v) (g : v ≤ hi) : outside lo hi v = false := by simp [outside, h, g]

/-! ### Codes -/

theorem tripActionCode_lt (a : TripAction) : tripActionCode a < 2 := by cases a <;> decide

theorem tripAction_of_code (a : TripAction) : (if tripActionCode a = 0 then TripAction.disable else .stop) = a := by
  cases a <;> rfl

theorem foldTypeCode_lt (t : FoldType) : foldTypeCode t < 4 := by cases t <;> decide

theorem foldTypeOfCode_code (t : FoldType) : foldTypeOfCode (foldTypeCode t) = some t := by cases t <;> rfl

theorem policyCode_lt (p : MarginalPolicy) : policyCode p < 2 := by cases p <;> decide

theorem policyOfCode_code (p : MarginalPolicy) : policyOfCode (policyCode p) = some p := by cases p <;> rfl

theorem matchModeCode_lt (m : MatchMode) : matchModeCode m < 2 := by cases m <;> decide

theorem matchMode_of_code (m : MatchMode) : (if matchModeCode m = 0 then MatchMode.sequence else .lookup) = m := by
  cases m <;> rfl

theorem capacityLimit_le (t : FoldType) : capacityLimit t ≤ 24 := by cases t <;> decide

theorem bool_toNat_eq_one (b : Bool) : decide (b.toNat = 1) = b := by cases b <;> rfl

/-! ### PLANT entries (R63, R103) -/

/-- R103: a station record in its ranges is read back unclamped. -/
theorem parseStation_stationBytes {r : StationRecord} (weight : r.weight ≤ 5000) (caliper : r.caliper ≤ 5000)
    (drop : 50 ≤ r.dropTimeout ∧ r.dropTimeout ≤ 2000) (refill : 50 ≤ r.refillTimeout ∧ r.refillTimeout ≤ 2000)
    (u : 1 ≤ r.mon.u ∧ r.mon.u ≤ 15) (d : 1 ≤ r.mon.d ∧ r.mon.d ≤ 255) (t : 2 ≤ r.mon.t ∧ r.mon.t ≤ 255) :
    parseStation (stationBytes r) = some (r, false) := by
  have enabled := r.enabled.toNat_le
  have trip := tripActionCode_lt r.trip
  obtain ⟨drop, drop'⟩ := drop
  obtain ⟨refill, refill'⟩ := refill
  obtain ⟨u, u'⟩ := u
  obtain ⟨d, d'⟩ := d
  obtain ⟨t, t'⟩ := t
  simp (disch := omega) only [parseStation, stationBytes, boolByte_eq, List.append_assoc, fieldAt_head, fieldAt_skip, fieldAt_last,
    Nat.reduceSub, if_neg, clampTo_of_mem, outside_of_mem, tripAction_of_code, bool_toNat_eq_one, Bool.or_self]

/-- R63: a fold plan in its ranges is read back unclamped. -/
theorem parsePlan_planBytes {length : Nat} {p : FoldPlan} (offset : p.offset < 65536) (block : 50 ≤ p.block ∧ p.block ≤ 1000)
    (fits : p.offset + p.block ≤ length) (nest : p.nest ≤ 100) (panel : 200 ≤ p.panelMin ∧ p.panelMin ≤ 1000)
    (capacity : 1 ≤ p.capacity ∧ p.capacity ≤ capacityLimit p.type) : parsePlan length (planBytes (some p)) = some (p, false) := by
  have type := foldTypeCode_lt p.type
  have policy := policyCode_lt p.policy
  have limit := capacityLimit_le p.type
  obtain ⟨block, block'⟩ := block
  obtain ⟨panel, panel'⟩ := panel
  obtain ⟨capacity, capacity'⟩ := capacity
  simp (disch := omega) only [parsePlan, planBytes, List.append_assoc, fieldAt_head, fieldAt_skip, fieldAt_last, Nat.reduceSub,
    foldTypeOfCode_code, policyOfCode_code, clampTo_of_mem, outside_of_mem, if_pos, Bool.or_self]

/-! ### POSTAL entries (R124, R141, R143) -/

/-- R124: a valid scheme entry is read back with its leading digits alone. -/
theorem parseScheme_schemeBytes {e : SchemeEntry} (len : 1 ≤ e.len ∧ e.len ≤ 5) (chars : e.chars.length = 5)
    (digits : (e.chars.take e.len).all isDigit = true) (group : e.group ≤ 254) :
    parseScheme (schemeBytes (some e)) = some (some e.stored) := by
  have bytes : schemeBytes (some e) = toBytes 1 1 ++ (toBytes 1 e.len ++ (e.chars ++ toBytes 1 e.group)) := by
    simp only [schemeBytes, List.append_assoc]; rfl
  have body : ((schemeBytes (some e)).drop 2).take 5 = e.chars := by
    rw [bytes, drop_toBytes (by decide), drop_toBytes (by decide)]
    simp [chars]
  have last : fieldAt (schemeBytes (some e)) 7 1 = e.group := by
    rw [bytes, fieldAt_skip (by decide), fieldAt_skip (by decide), fieldAt_append (by omega), chars, fieldAt_last (by omega)]
  have valid : fieldAt (schemeBytes (some e)) 0 1 = 1 := by rw [bytes, fieldAt_head (by decide)]
  have length : fieldAt (schemeBytes (some e)) 1 1 = e.len := by
    rw [bytes, fieldAt_skip (by decide), fieldAt_head (by omega)]
  simp only [parseScheme, valid, length, body, last]
  rw [if_neg (by decide), if_pos ⟨trivial, len.1, len.2, digits, group⟩]

theorem strictlyRising_of_pairwise {bs : List Nat} (h : bs.Pairwise (· < ·)) : strictlyRising bs = true := by
  induction h with
  | nil => rfl
  | @cons a rest below _ ih =>
    cases rest with
    | nil => rfl
    | cons b rest => simp [strictlyRising, below b (by simp), ih]

/-- The two-byte fields at a body's start. -/
theorem fields2_flatMap {bs : List Nat} (h : ∀ b ∈ bs, b < 65536) (rest : List Byte) :
    fields2 bs.length (bs.flatMap (toBytes 2) ++ rest) = bs := by
  induction bs with
  | nil => rfl
  | cons b bs ih =>
    have first : ofBytes (toBytes 2 b) = b := ofBytes_toBytes (h b (by simp))
    rw [List.flatMap_cons, List.append_assoc, List.length_cons, fields2, drop_toBytes (by decide), Nat.sub_self, List.drop_zero,
      ih fun x hx => h x (List.mem_cons_of_mem _ hx), List.take_append_of_le_length (by simp),
      List.take_of_length_le (by simp), first]

/-- R141: rising weight steps are read back unclamped. -/
theorem parseSteps_stepsBytes {bs : List Nat} (length : 1 ≤ bs.length ∧ bs.length ≤ 8) (rising : bs.Pairwise (· < ·))
    (bound : ∀ b ∈ bs, 1 ≤ b ∧ b < 65536) : parseSteps (stepsBytes (some bs)) = some (bs, false) := by
  have count : fieldAt (stepsBytes (some bs)) 0 1 = bs.length := by
    rw [stepsBytes, List.append_assoc, fieldAt_head (by omega)]
  have raw : fields2 bs.length ((stepsBytes (some bs)).drop 1) = bs := by
    rw [stepsBytes, List.append_assoc, drop_toBytes (by decide)]
    exact fields2_flatMap (fun b hb => (bound b hb).2) _
  have clamped : bs.map (clampTo 1 65535) = bs :=
    (List.map_congr_left fun b hb => clampTo_of_mem (bound b hb).1 (Nat.le_of_lt_succ (bound b hb).2)).trans (List.map_id' bs)
  have inside : bs.any (outside 1 65535) = false := by
    rw [List.any_eq_false]
    intro b hb
    rw [outside_of_mem (bound b hb).1 (Nat.le_of_lt_succ (bound b hb).2)]
    exact Bool.false_ne_true
  simp only [parseSteps, count, raw, clamped, inside]
  rw [if_pos ⟨length.1, length.2, strictlyRising_of_pairwise rising⟩]

/-- A vector's elements in order. -/
theorem toList_eq_map_finRange {α : Type} {n : Nat} (xs : Vector α n) : xs.toList = (List.finRange n).map fun k => xs[k] := by
  apply List.ext_getElem <;> simp

theorem vector4_toList {α : Type} (xs : Vector α 4) : xs.toList = [xs[0], xs[1], xs[2], xs[3]] :=
  toList_eq_map_finRange xs

theorem vector8_toList {α : Type} (xs : Vector α 8) :
    xs.toList = [xs[0], xs[1], xs[2], xs[3], xs[4], xs[5], xs[6], xs[7]] := toList_eq_map_finRange xs

/-- R143: eight rates are read back. -/
theorem parseRates_ratesBytes {r : Vector Nat 8} (bound : ∀ k : Fin 8, r[k] < 65536) : parseRates (ratesBytes r) = r := by
  have b0 : r[0] < 65536 := bound 0
  have b1 : r[1] < 65536 := bound 1
  have b2 : r[2] < 65536 := bound 2
  have b3 : r[3] < 65536 := bound 3
  have b4 : r[4] < 65536 := bound 4
  have b5 : r[5] < 65536 := bound 5
  have b6 : r[6] < 65536 := bound 6
  have b7 : r[7] < 65536 := bound 7
  apply Vector.toList_inj.1
  simp (disch := omega) only [parseRates, ratesBytes, vector8_toList, List.flatMap_cons, List.flatMap_nil, List.append_nil,
    fieldAt_head, fieldAt_skip, fieldAt_last, Nat.reduceSub]
  rfl

/-! ### Piece records and jobs (R26, R158) -/

/-- R26: the flags of a piece record spell both. -/
theorem recordFlags (pull reprint : Bool) : ((if pull then 1 else 0) + (if reprint then 2 else 0) < 4) ∧
    decide (((if pull then 1 else 0) + (if reprint then 2 else 0)) % 2 = 1) = pull ∧
    decide (2 ≤ (if pull then 1 else 0) + (if reprint then 2 else 0)) = reprint := by
  cases pull <;> cases reprint <;> decide

/-- R26: a piece record in its ranges is read back. -/
theorem parsePieceRecord_bytes {r : PieceRecord} (piece : 1 ≤ r.piece ∧ r.piece ≤ Config.maxPiece)
    (sheets : 1 ≤ r.sheets ∧ r.sheets ≤ 24) (key : ∀ k, r.key = some k → k ≤ 99999) :
    parsePieceRecord (pieceRecordBytes r) = some r := by
  have piece' : r.piece < 256 ^ 3 := Nat.lt_succ_of_le piece.2
  have cls := r.insertClass.isLt
  have plan := r.plan.isLt
  obtain ⟨flags, pull, reprint⟩ := recordFlags r.pull r.reprint
  have keyField : fieldAt (optBytes 4 r.key) 0 4 = r.key.getD 0xFFFFFFFF :=
    fieldAt_opt fun n hn => by have := key n hn; omega
  have keyOk : r.key.getD 0xFFFFFFFF ≤ 99999 ∨ r.key.getD 0xFFFFFFFF = 0xFFFFFFFF := by
    cases e : r.key with
    | none => exact .inr rfl
    | some k => exact .inl (key k e)
  have keyBack : (if r.key.getD 0xFFFFFFFF = 0xFFFFFFFF then none else some (r.key.getD 0xFFFFFFFF)) = r.key := by
    cases e : r.key with
    | none => rfl
    | some k => have := key k e; simp only [Option.getD_some]; rw [if_neg (by omega)]
  unfold pieceRecordBytes
  generalize (if r.pull then 1 else 0) + (if r.reprint then 2 else 0) = f at flags pull reprint ⊢
  simp (disch := omega) only [parsePieceRecord, List.append_assoc, fieldAt_head, fieldAt_skip, Nat.reduceSub, keyField, cls, plan,
    ↓reduceDIte, pull, reprint, keyBack]
  rw [if_pos ⟨piece.1, sheets.1, sheets.2, flags, keyOk⟩]

/-- R158: a job identity in its ranges is read back. -/
theorem parseJob_jobBytes {c : LineConfig} {j : Job} (code : 1 ≤ j.code ∧ j.code < 65536)
    (first : 1 ≤ j.first ∧ j.first ≤ Config.maxPiece) (skip : 1 ≤ j.skip ∧ j.skip ≤ 16) : parseJob c (jobBytes (some j)) = some j := by
  obtain ⟨code, code'⟩ := code
  have first' : j.first < 256 ^ 3 := Nat.lt_succ_of_le first.2
  have mode := matchModeCode_lt j.mode
  have mask : j.mask.toNat < 32 := j.mask.isLt
  obtain ⟨skip, skip'⟩ := skip
  simp (disch := omega) only [parseJob, jobBytes, List.append_assoc, fieldAt_head, fieldAt_skip, fieldAt_last, Nat.reduceSub]
  rw [if_pos ⟨code, first.1, Nat.le_of_lt_succ mode, .inl (Nat.le_of_lt_succ mask), .inl ⟨skip, skip'⟩⟩, matchMode_of_code,
    if_neg (show ¬ j.mask.toNat = 255 by omega), if_neg (show ¬ j.skip = 255 by omega), BitVec.ofNat_toNat, BitVec.setWidth_eq]

/-! ### The range filter (R24, R25) -/

/-- R25: a range sent as it stands in the filter. -/
def PieceRange.raw (r : PieceRange) : RawRange := ⟨r.enabled.toNat, r.low, r.high⟩

/-- R25: the range that the numbers sent give. -/
def RawRange.range (x : RawRange) : PieceRange := ⟨x.enabled = 1, x.low, x.high⟩

@[simp] theorem PieceRange.range_raw (r : PieceRange) : r.raw.range = r := by
  obtain ⟨enabled, low, high⟩ := r
  cases enabled <;> rfl

/-- A range enabled or not is sent as the byte 1 or 0. -/
theorem RawRange.raw_range {x : RawRange} (h : x.enabled ≤ 1) : x.range.raw = x := by
  obtain ⟨enabled, low, high⟩ := x
  have : (decide (enabled = 1)).toNat = enabled := by
    rcases Nat.le_one_iff_eq_zero_or_eq_one.1 h with rfl | rfl <;> rfl
  simp only [RawRange.range, PieceRange.raw, this]

@[simp] theorem RawRange.bytes_length (x : RawRange) : x.bytes.length = 7 := by simp [RawRange.bytes]

/-- Numbers that a range's fields can carry. -/
def RawRange.Fits (x : RawRange) : Prop := x.enabled < 2 ^ 8 ∧ x.low < 2 ^ 24 ∧ x.high < 2 ^ 24

/-- R25: a range that is refused. -/
theorem parseRange_refused {x : RawRange} {rest : List Byte} (fits : x.Fits) (h : x.Refused) : parseRange (x.bytes ++ rest) = none := by
  obtain ⟨enabled, low, high⟩ := fits
  unfold RawRange.Refused at h
  simp (disch := omega) only [parseRange, RawRange.bytes, List.append_assoc, fieldAt_head, fieldAt_skip, Nat.reduceSub, if_neg]

/-- R25: a range that is taken. -/
theorem parseRange_taken {x : RawRange} {rest : List Byte} (fits : x.Fits) (h : ¬ x.Refused) :
    parseRange (x.bytes ++ rest) = some x.range := by
  obtain ⟨enabled, low, high⟩ := fits
  unfold RawRange.Refused at h
  simp (disch := omega) only [parseRange, RawRange.bytes, List.append_assoc, fieldAt_head, fieldAt_skip, Nat.reduceSub, if_pos,
    RawRange.range]

/-- 11.6: the body of a SetRangeFilter. -/
def rawFilterBytes (sense : Nat) (xs : Vector RawRange 4) : List Byte := toBytes 1 sense ++ xs.toList.flatMap RawRange.bytes

/-- The filter that the numbers sent give. -/
def rawFilter (sense : Nat) (xs : Vector RawRange 4) : RangeFilter :=
  ⟨if sense = 0 then .inside else .outside, xs.map RawRange.range⟩

theorem rawFilterBytes_length (sense : Nat) (xs : Vector RawRange 4) : (rawFilterBytes sense xs).length = 29 := by
  simp [rawFilterBytes, vector4_toList]

/-- A body after a range. -/
theorem drop_rawRange {x : RawRange} {o : Nat} {rest : List Byte} (h : 7 ≤ o) : (x.bytes ++ rest).drop o = rest.drop (o - 7) := by
  rw [List.drop_append, RawRange.bytes_length, List.drop_eq_nil_of_le (by simpa using h), List.nil_append]

/-- The ranges of a body stand one after another from its second byte on. -/
theorem drop_rawFilterBytes (sense : Nat) (xs : Vector RawRange 4) (k : Fin 4) :
    ∃ rest, (rawFilterBytes sense xs).drop (1 + 7 * k.val) = xs[k].bytes ++ rest := by
  simp only [rawFilterBytes, vector4_toList, List.flatMap_cons, List.flatMap_nil, drop_toBytes (show 1 ≤ 1 + 7 * k.val by omega)]
  fin_cases k
  · exact ⟨_, rfl⟩
  · exact ⟨_, drop_rawRange (by decide)⟩
  · exact ⟨_, (drop_rawRange (by decide)).trans (drop_rawRange (by decide))⟩
  · exact ⟨_, (drop_rawRange (by decide)).trans ((drop_rawRange (by decide)).trans (drop_rawRange (by decide)))⟩

/-- R25: a body's filter, its four ranges taken and its sense one of the two values. -/
theorem parseFilter_some {b : List Byte} {sense : Nat} {rs : Vector PieceRange 4} (code : fieldAt b 0 1 = sense) (h : sense ≤ 1)
    (ranges : ∀ k : Fin 4, parseRange (b.drop (1 + 7 * k.val)) = some rs[k]) :
    parseFilter b = some ⟨if sense = 0 then .inside else .outside, rs⟩ := by
  have e0 : parseRange (b.drop 1) = some rs[0] := ranges 0
  have e1 : parseRange (b.drop 8) = some rs[1] := ranges 1
  have e2 : parseRange (b.drop 15) = some rs[2] := ranges 2
  have e3 : parseRange (b.drop 22) = some rs[3] := ranges 3
  have all : #v[rs[0], rs[1], rs[2], rs[3]] = rs := Vector.toList_inj.1 (vector4_toList rs).symm
  simp only [parseFilter, e0, e1, e2, e3, code, all]
  rcases Nat.le_one_iff_eq_zero_or_eq_one.1 h with rfl | rfl <;> rfl

/-- R25: a body whose sense has neither of the two values. -/
theorem parseFilter_badSense {b : List Byte} (h : 1 < fieldAt b 0 1) : parseFilter b = none := by
  unfold parseFilter
  split
  · split
    · omega
    · omega
    · rfl
  · rfl

/-- R25: a body with a range refused. -/
theorem parseFilter_badRange {b : List Byte} (k : Fin 4) (h : parseRange (b.drop (1 + 7 * k.val)) = none) :
    parseFilter b = none := by
  unfold parseFilter
  split
  · rename_i e0 e1 e2 e3
    fin_cases k
    · cases e0.symm.trans h
    · cases e1.symm.trans h
    · cases e2.symm.trans h
    · cases e3.symm.trans h
  · rfl

/-- R25: numbers that are refused. -/
theorem parseFilter_refused {sense : Nat} {xs : Vector RawRange 4} (small : sense < 2 ^ 8) (fits : ∀ k : Fin 4, xs[k].Fits)
    (h : 1 < sense ∨ ∃ k : Fin 4, xs[k].Refused) : parseFilter (rawFilterBytes sense xs) = none := by
  rcases h with h | ⟨k, h⟩
  · have code : fieldAt (rawFilterBytes sense xs) 0 1 = sense := fieldAt_head small
    exact parseFilter_badSense (by rw [code]; exact h)
  · obtain ⟨rest, e⟩ := drop_rawFilterBytes sense xs k
    exact parseFilter_badRange k (by rw [e]; exact parseRange_refused (fits k) h)

/-- R25: numbers that are taken. -/
theorem parseFilter_taken {sense : Nat} {xs : Vector RawRange 4} (fits : ∀ k : Fin 4, xs[k].Fits) (h : sense ≤ 1)
    (ok : ∀ k : Fin 4, ¬ xs[k].Refused) : parseFilter (rawFilterBytes sense xs) = some (rawFilter sense xs) := by
  refine parseFilter_some (fieldAt_head (by omega)) h fun k => ?_
  obtain ⟨rest, e⟩ := drop_rawFilterBytes sense xs k
  rw [e, parseRange_taken (fits k) (ok k)]
  simp

/-- R25: the numbers taken are those that the reply gives back. -/
theorem filterBytes_rawFilter {sense : Nat} {xs : Vector RawRange 4} (h : sense ≤ 1) (ok : ∀ k : Fin 4, ¬ xs[k].Refused) :
    filterBytes (rawFilter sense xs) = rawFilterBytes sense xs := by
  have ranges : (rawFilter sense xs).ranges.toList.flatMap (fun r => r.raw.bytes) = xs.toList.flatMap RawRange.bytes := by
    have back : ∀ k : Fin 4, xs[k].range.raw = xs[k] := fun k => RawRange.raw_range (by have := ok k; unfold RawRange.Refused at this; omega)
    have b0 : xs[0].range.raw = xs[0] := back 0
    have b1 : xs[1].range.raw = xs[1] := back 1
    have b2 : xs[2].range.raw = xs[2] := back 2
    have b3 : xs[3].range.raw = xs[3] := back 3
    simp [rawFilter, vector4_toList, b0, b1, b2, b3]
  have sense' : [if (rawFilter sense xs).sense = .inside then (0 : Byte) else 1] = toBytes 1 sense := by
    rcases Nat.le_one_iff_eq_zero_or_eq_one.1 h with rfl | rfl <;> rfl
  unfold filterBytes rawFilterBytes
  rw [sense', ← ranges]
  simp only [boolByte_eq, PieceRange.raw, RawRange.bytes]

/-- The numbers that a filter is sent as. -/
theorem exists_rawFilter {f : RangeFilter} (order : ∀ k : Fin 4, 1 ≤ f.ranges[k].low ∧ f.ranges[k].low ≤ f.ranges[k].high ∧
    f.ranges[k].high ≤ Config.maxPiece) :
    ∃ (sense : Nat) (xs : Vector RawRange 4), sense ≤ 1 ∧ (∀ k : Fin 4, xs[k].Fits) ∧ (∀ k : Fin 4, ¬ xs[k].Refused) ∧
      rawFilter sense xs = f := by
  refine ⟨if f.sense = .inside then 0 else 1, f.ranges.map PieceRange.raw, by split <;> decide, fun k => ?_, fun k => ?_, ?_⟩
  · obtain ⟨-, le, max⟩ := order k
    have := (f.ranges[k]).enabled.toNat_le
    unfold Config.maxPiece at max
    simp only [Fin.getElem_fin, Vector.getElem_map, RawRange.Fits, PieceRange.raw] at *
    omega
  · obtain ⟨low, le, -⟩ := order k
    have := (f.ranges[k]).enabled.toNat_le
    simp only [Fin.getElem_fin, Vector.getElem_map, RawRange.Refused, PieceRange.raw] at *
    omega
  · obtain ⟨sense, ranges⟩ := f
    have back : (ranges.map PieceRange.raw).map RawRange.range = ranges := by ext; simp
    cases sense <;> simp [rawFilter, back]

/-- R24: a filter whose ranges are in order is read back. -/
theorem parseFilter_filterBytes {f : RangeFilter} (order : ∀ k : Fin 4, 1 ≤ f.ranges[k].low ∧ f.ranges[k].low ≤ f.ranges[k].high ∧
    f.ranges[k].high ≤ Config.maxPiece) : parseFilter (filterBytes f) = some f := by
  obtain ⟨sense, xs, one, fits, ok, rfl⟩ := exists_rawFilter order
  rw [filterBytes_rawFilter one ok, parseFilter_taken fits one ok]

/-- Settles O18, by the round trips of the record layouts. -/
theorem entryBytesRead : Obligations.EntryBytesRead :=
  ⟨⟨fun _ weight caliper d1 d2 r1 r2 u1 u2 n1 n2 t1 t2 =>
      parseStation_stationBytes weight caliper ⟨d1, d2⟩ ⟨r1, r2⟩ ⟨u1, u2⟩ ⟨n1, n2⟩ ⟨t1, t2⟩,
    fun _ _ offset b1 b2 fits nest p1 p2 c1 c2 => parsePlan_planBytes offset ⟨b1, b2⟩ fits nest ⟨p1, p2⟩ ⟨c1, c2⟩,
    fun _ l1 l2 chars digits group => parseScheme_schemeBytes ⟨l1, l2⟩ chars digits group,
    rfl,
    fun _ l1 l2 rising bound => parseSteps_stepsBytes ⟨l1, l2⟩ rising bound,
    fun _ bound => parseRates_ratesBytes bound⟩,
   fun _ p1 p2 s1 s2 key => parsePieceRecord_bytes ⟨p1, p2⟩ ⟨s1, s2⟩ key,
   fun _ order => parseFilter_filterBytes order,
   fun _ _ c1 c2 f1 f2 s1 s2 => parseJob_jobBytes ⟨c1, c2⟩ ⟨f1, f2⟩ ⟨s1, s2⟩⟩

end Sys2Proof.Machine
end

section
namespace Sys2Proof.Machine

variable {s : State}

/-! ### Requests (R187, R188) -/

/-- R188: a request of a length allowed is answered by its block. -/
theorem takeFrame_answer {type tag : Byte} {body : List Byte} (handler : List Byte → State → Answer) (held : s.link.held = none)
    (length : bodyLengthOk type body.length = true) :
    takeFrame type tag body handler s =
      holdReply tag type (handler body s).reply (handler body s).restart (handler body s).state := by
  rw [takeFrame, held]; exact if_pos length

/-- R188: a request of a length not allowed. -/
theorem takeFrame_badLength {type tag : Byte} {body : List Byte} (handler : List Byte → State → Answer) (held : s.link.held = none)
    (length : bodyLengthOk type body.length = false) :
    takeFrame type tag body handler s = s.answered tag type .badLength [] := by
  rw [takeFrame, held]; exact if_neg (by simp [length])

/-! ### SetRangeFilter (R25) -/

/-- R25: a request of a length allowed, no other held. -/
theorem exec_setRangeFilter {tag : Byte} {body : List Byte} (held : s.link.held = none) (length : body.length = 0 ∨ body.length = 29) :
    exec (.setRangeFilter tag body) s = .next (holdReply tag 0x14 (setRangeFilterBody body s).reply
      (setRangeFilterBody body s).restart (setRangeFilterBody body s).state) :=
  congrArg Host.Outcome.next (takeFrame_answer setRangeFilterBody held (by rcases length with e | e <;> rw [e] <;> rfl))

theorem setRangeFilterBody_standby {body : List Byte} (h : s.line.state = .standby) :
    setRangeFilterBody body s = filterReply .wrongState s := if_pos h

theorem setRangeFilterBody_query (h : s.line.state ≠ .standby) : setRangeFilterBody [] s = filterReply .ok s := if_neg h

theorem isEmpty_of_length {body : List Byte} (length : body.length = 29) : body.isEmpty = false := by
  cases body with
  | nil => cases length
  | cons b rest => rfl

theorem setRangeFilterBody_refused {body : List Byte} (h : s.line.state ≠ .standby) (length : body.length = 29)
    (bad : parseFilter body = none) : setRangeFilterBody body s = filterReply .badValue s := by
  rw [setRangeFilterBody, if_neg h, isEmpty_of_length length, bad]; rfl

theorem setRangeFilterBody_taken {body : List Byte} {f : RangeFilter} (h : s.line.state ≠ .standby) (length : body.length = 29)
    (good : parseFilter body = some f) : setRangeFilterBody body s = filterReply .ok { s with reg.filter := f } := by
  rw [setRangeFilterBody, if_neg h, isEmpty_of_length length, good]; rfl

/-- R25: a filter refused. -/
theorem exec_setRangeFilter_refused {tag : Byte} {body : List Byte} (held : s.link.held = none) (length : body.length = 29)
    (state : s.line.state ≠ .standby) (bad : parseFilter body = none) :
    exec (.setRangeFilter tag body) s = .next (s.answered tag 0x14 .badValue (filterBytes s.reg.filter)) := by
  rw [exec_setRangeFilter held (.inr length), setRangeFilterBody_refused state length bad]; rfl

/-- R25: a filter replaced. -/
theorem exec_setRangeFilter_taken {tag : Byte} {body : List Byte} {f : RangeFilter} (held : s.link.held = none)
    (length : body.length = 29) (state : s.line.state ≠ .standby) (good : parseFilter body = some f) :
    exec (.setRangeFilter tag body) s = .next
      { s with reg.filter := f, link.held := some ⟨tag, 0x14, ⟨.ok, filterBytes f⟩, false⟩ } := by
  rw [exec_setRangeFilter held (.inr length), setRangeFilterBody_taken state length good]; rfl

theorem filterBytes_length (f : RangeFilter) : (filterBytes f).length = 29 := by
  simp [filterBytes, vector4_toList]

/-! ### What a filter excludes (R24) -/

/-- R24: whether a number lies in an enabled range. -/
theorem any_range_iff (f : RangeFilter) (p : Nat) :
    (f.ranges.toList.any fun r => r.enabled && r.low ≤ p && p ≤ r.high) = true ↔
      ∃ k : Fin 4, f.ranges[k].enabled = true ∧ f.ranges[k].low ≤ p ∧ p ≤ f.ranges[k].high := by
  simp [toList_eq_map_finRange, and_assoc]

theorem excludes_inside {f : RangeFilter} (p : Nat) (h : f.sense = .inside) : f.excludes p = true ↔
    ∃ k : Fin 4, f.ranges[k].enabled = true ∧ f.ranges[k].low ≤ p ∧ p ≤ f.ranges[k].high := by
  rw [← any_range_iff, RangeFilter.excludes, h]

theorem excludes_outside {f : RangeFilter} (p : Nat) (h : f.sense = .outside) : f.excludes p = true ↔
    ∀ k : Fin 4, f.ranges[k].enabled = true → ¬ (f.ranges[k].low ≤ p ∧ p ≤ f.ranges[k].high) := by
  have e : f.excludes p = !(f.ranges.toList.any fun r => r.enabled && r.low ≤ p && p ≤ r.high) := by
    rw [RangeFilter.excludes, h]
  rw [e, Bool.not_eq_true', Bool.eq_false_iff, ne_eq, any_range_iff]
  simp only [not_exists, not_and]

/-- Settles O20, by the checks on the body's ranges and what the filter then excludes. -/
theorem rangeFilterReplaced : Obligations.RangeFilterReplaced := by
  refine ⟨fun tag s held => ⟨fun f order state => ?_, fun state => ?_, fun body => ⟨fun length state => ?_, ?_, ?_⟩⟩,
    ?_, fun f p => ⟨excludes_inside p, excludes_outside p⟩⟩
  · exact exec_setRangeFilter_taken held (filterBytes_length f) state (parseFilter_filterBytes order)
  · rw [exec_setRangeFilter held (.inl rfl), setRangeFilterBody_query state]; rfl
  · rw [exec_setRangeFilter held length, setRangeFilterBody_standby state]; rfl
  · exact fun length state bad => exec_setRangeFilter_refused held length state bad
  · intro empty full
    have wrong : bodyLengthOk 0x14 body.length = false := by
      change (body.length == 0 || body.length == 29) = false
      simp [empty, full]
    exact congrArg Host.Outcome.next (takeFrame_badLength setRangeFilterBody held wrong)
  · rintro tag sense xs body s held state small fits rfl
    have length := rawFilterBytes_length sense xs
    refine ⟨fun bad => ?_, fun one ok => ⟨rawFilter sense xs, ?_, ?_, ?_⟩⟩
    · exact exec_setRangeFilter_refused held length state (parseFilter_refused small fits bad)
    · rw [← rawFilterBytes, ← filterBytes_rawFilter one ok]
      refine exec_setRangeFilter_taken held (filterBytes_length _) state ?_
      rw [filterBytes_rawFilter one ok, parseFilter_taken fits one ok]
    · rcases Nat.le_one_iff_eq_zero_or_eq_one.1 one with rfl | rfl <;> simp [rawFilter]
    · intro k; simp [rawFilter, RawRange.range]

end Sys2Proof.Machine
end

section
namespace Sys2Proof.Machine

variable {s : State}

/-! ### Reports and marks as updates of one field -/

/-- R189: the link after a report. -/
def Link.push (l : Link) (now : LineTime) (r : Report) : Link :=
  { l with reports := (pushReport l.reports l.overflow now r).1, overflow := (pushReport l.reports l.overflow now r).2 }

/-- The link after reports, queued in order. -/
def Link.pushAll (l : Link) (now : LineTime) (rs : List Report) : Link := rs.foldl (fun l r => l.push now r) l

theorem queueReport_eq (r : Report) (s : State) : queueReport r s = { s with link := s.link.push s.time r } := rfl

theorem queueReports_eq (rs : List Report) (s : State) : queueReports rs s = { s with link := s.link.pushAll s.time rs } := by
  induction rs generalizing s with
  | nil => rfl
  | cons r rs ih => exact ih (queueReport r s)

theorem queueReports_append (a b : List Report) (s : State) : queueReports (a ++ b) s = queueReports b (queueReports a s) :=
  List.foldl_append

/-- The record of a set whose operation is cut off (R22). -/
def SetRecord.disturb (r : SetRecord) : SetRecord := { r with faults := r.faults ||| faultMask .disturbed }

theorem disturb_disturb (r : SetRecord) : r.disturb.disturb = r.disturb := by
  simp [SetRecord.disturb, BitVec.or_assoc]

/-- A pool with DISTURBED added to the sets of slots. -/
def disturbPool (pool : Vector (Option SetRecord) 16) (is : List Slot) : Vector (Option SetRecord) 16 :=
  is.foldl (fun p i => p.set i.val (p[i].map SetRecord.disturb) i.isLt) pool

/-- DISTURBED added to the sets of slots. -/
def State.disturb (s : State) (is : List Slot) : State := { s with reg.pool := disturbPool s.reg.pool is }

@[simp] theorem disturb_nil (s : State) : s.disturb [] = s := rfl

theorem disturb_append (s : State) (is js : List Slot) : s.disturb (is ++ js) = (s.disturb is).disturb js := by
  simp only [State.disturb, disturbPool, List.foldl_append]

theorem addFault_disturbed (i : Slot) (s : State) : addFault .disturbed i s = s.disturb [i] := rfl

theorem addFault?_disturbed (i : Option Slot) (s : State) : addFault? .disturbed i s = s.disturb i.toList := by
  cases i <;> rfl

theorem foldl_addFault_disturbed (is : List Slot) (s : State) : is.foldl (fun s i => addFault .disturbed i s) s = s.disturb is := by
  induction is generalizing s with
  | nil => rfl
  | cons i is ih => exact (ih (s.disturb [i])).trans (disturb_append s [i] is).symm

/-- R22: the set of each slot marked gets DISTURBED, and no other. -/
theorem setAt_disturb (s : State) (is : List Slot) (j : Slot) :
    (s.disturb is).setAt j = if j ∈ is then (s.setAt j).map SetRecord.disturb else s.setAt j := by
  induction is generalizing s with
  | nil => rfl
  | cons i is ih =>
    have first : (s.disturb [i]).setAt j = if j = i then (s.setAt j).map SetRecord.disturb else s.setAt j :=
      setAt_modSet i j SetRecord.disturb s
    have split : s.disturb (i :: is) = (s.disturb [i]).disturb is := disturb_append s [i] is
    rw [split, ih, first]
    by_cases e : j = i
    · subst e
      simp only [if_true, List.mem_cons, true_or, Option.map_map]
      rw [show SetRecord.disturb ∘ SetRecord.disturb = SetRecord.disturb from funext disturb_disturb, ite_self]
    · rw [if_neg e]; simp only [List.mem_cons, e, false_or]

/-! ### The feed's and the Set Handler's cut-off (R22, R95) -/

/-- The set of the sheet in transit. -/
def State.feedSlots (s : State) : List Slot :=
  match s.coll.transit with
  | .none => []
  | .feeding .. => s.coll.current.toList
  | .decided j _ => [j]

/-- The Collation Unit with its feed cut off. -/
def State.cutColl (s : State) : Collation :=
  match s.coll.transit with
  | .feeding tag _ _ => { s.coll with transit := .none, closedTag := if tag.isSome then tag else s.coll.closedTag }
  | _ => s.coll

theorem cutOffFeed_eq (s : State) : cutOffFeed s = ({ s with coll := s.cutColl } : State).disturb s.feedSlots := by
  unfold cutOffFeed State.cutColl State.feedSlots
  cases e : s.coll.transit with
  | none => rfl
  | feeding tag reads timer => simp only [addFault?_disturbed]
  | decided j closes => exact addFault_disturbed j s

/-- The sets of the Set Handler's operations outstanding. -/
def State.setSlots (s : State) : List Slot :=
  (if s.releasing then s.sets.accumulator.toList else []) ++ (if s.folderAtRest then [] else s.sets.folderSet.toList)

/-- The Set Handler with its operations cut off. -/
def State.cutSets (s : State) : SetHandler :=
  { s.sets with
    release := if s.releasing then .pending else s.sets.release
    folder := if s.folderAtRest then s.sets.folder else .waiting
    plate1 := match s.sets.folder with | .moving (some _) _ _ => none | _ => s.sets.plate1
    plate2 := match s.sets.folder with | .moving _ (some _) _ => none | _ => s.sets.plate2 }

/-- The release of the Set Handler cut off. -/
theorem cutOffRelease_eq (s : State) :
    (if s.releasing then addFault? .disturbed s.sets.accumulator { s with sets.release := .pending } else s) =
      ({ s with sets.release := if s.releasing then .pending else s.sets.release } : State).disturb
        (if s.releasing then s.sets.accumulator.toList else []) := by
  split
  · exact addFault?_disturbed _ _
  · rfl

theorem cutOffSets_eq (s : State) : cutOffSets s = ({ s with sets := s.cutSets } : State).disturb s.setSlots := by
  unfold cutOffSets State.cutSets State.setSlots
  simp only [cutOffRelease_eq, disturb_append]
  generalize (if s.releasing then s.sets.accumulator.toList else []) = is
  cases e : s.sets.folder with
  | idle => simp only [State.disturb, State.folderAtRest, e]; rfl
  | waiting => simp only [State.disturb, State.folderAtRest, e]; rfl
  | moving p1 p2 x =>
    simp only [State.disturb, State.folderAtRest, e, addFault?_disturbed]
    cases p1 <;> cases p2 <;> rfl
  | folding x => simp only [State.disturb, State.folderAtRest, e, addFault?_disturbed]; rfl

end Sys2Proof.Machine
end

section
namespace Sys2Proof.Machine

variable {s : State}

/-! ### The Track Controller's cut-off (R121) -/

/-- The sets of an index outstanding: those on the carriers and in the fold exit buffer. -/
def State.indexSlots (s : State) : List Slot := if s.track.index.isSome then s.carrierSets ++ s.sets.buffer.toList else []

theorem cutOffIndex_eq (s : State) : cutOffIndex s = ({ s with track.index := none } : State).disturb s.indexSlots := by
  unfold cutOffIndex State.indexSlots
  cases e : s.track.index with
  | none =>
    have same : ({ s with track.index := none } : State) = s := by rw [← e]
    rw [same]; rfl
  | some x => exact foldl_addFault_disturbed _ _

/-- A station with its drop or refill attempt cut off. -/
def Station.cut (x : Station) : Station :=
  if x.drop.isSome then
    if x.pendingDisable then
      { x with state := .off, drop := none, seq := .none, pendingDisable := false, announce := x.announce && x.state == .off }
    else { x with state := .refilling, drop := none, seq := .waiting 1 }
  else
    match x.seq with
    | .running k _ => { x with seq := .waiting k }
    | _ => x

/-- The set under a station in mid-drop. -/
def State.dropSlots (s : State) (n : StationId) : List Slot :=
  if (s.station n).drop.isSome then (s.carrier (stationPosition n)).toList else []

/-- Whether a stop leaves a station OFF that was not. -/
def State.leftOff (s : State) (n : StationId) : Bool :=
  (s.station n).drop.isSome && (s.station n).pendingDisable && (s.station n).state != .off

/-- R110: the report of a station that a stop leaves OFF. -/
def State.offReport (s : State) (n : StationId) : Report := .stationChange n (s.station n).state .off .host

theorem putStation_self (n : StationId) (s : State) : putStation n (s.station n) s = s := by
  simp only [putStation, State.station, Fin.getElem_fin, Vector.set_getElem_self]

theorem putStation_putStation (n : StationId) (x y : Station) (s : State) :
    putStation n y (putStation n x s) = putStation n y s := by
  simp only [putStation, Vector.set_set]

/-- R121: a station in mid-drop with a disable pending is OFF after a stop. -/
theorem disableStation_eq (n : StationId) (x : Station) (s : State) :
    changeStation n .off .host (putStation n { x with drop := none, seq := .none, pendingDisable := false } s) =
      queueReports (if x.state != .off then [.stationChange n x.state .off .host] else [])
        (putStation n { x with
          state := .off, drop := none, seq := .none, pendingDisable := false, announce := x.announce && x.state == .off } s) := by
  unfold changeStation
  rw [station_putStation_self]
  by_cases h : x.state = .off
  · obtain ⟨state, seq, pending, drop, announce⟩ := x
    simp only at h
    subst h
    simp only [if_true, bne_self_eq_false, Bool.false_eq_true, if_false, BEq.rfl, Bool.and_true]; rfl
  · simp only [h, if_false, bne_iff_ne, ne_eq, not_false_eq_true, if_true, StationState.reported, Bool.or_true, putStation_putStation]
    have e : (x.state == StationState.off) = false := by simpa using h
    rw [e]
    cases x.state <;> simp <;> rfl

/-- R121: what a stop makes of one station. -/
theorem cutOffStation_eq (s : State) (n : StationId) : cutOffStation s n =
    (queueReports (if s.leftOff n then [s.offReport n] else []) (putStation n (s.station n).cut s)).disturb (s.dropSlots n) := by
  unfold cutOffStation State.leftOff State.dropSlots Station.cut
  simp only
  cases hd : (s.station n).drop with
  | none =>
    simp only [Option.isSome_none, Bool.false_eq_true, if_false, Bool.false_and]
    cases hs : (s.station n).seq with
    | running k x => rfl
    | none => exact (putStation_self n s).symm
    | waiting k => exact (putStation_self n s).symm
  | some x =>
    simp only [Option.isSome_some, if_true, Bool.true_and, addFault?_disturbed]
    cases hp : (s.station n).pendingDisable with
    | false => rfl
    | true =>
      simp only [if_true, Bool.true_and, disableStation_eq]
      rw [queueReports_eq, queueReports_eq]
      rfl

/-- The stations after the cut-off of some of them, one after another. -/
def cutStations (v : Vector Station 6) (l : List StationId) : Vector Station 6 :=
  l.foldl (fun v n => v.set n.val v[n].cut n.isLt) v

/-- R121: what a stop makes of different stations. -/
theorem foldl_cutOffStation_eq {l : List StationId} (h : l.Nodup) (s : State) : l.foldl cutOffStation s =
    (queueReports ((l.filter s.leftOff).map s.offReport)
      { s with track.stations := cutStations s.track.stations l }).disturb (l.flatMap s.dropSlots) := by
  induction l generalizing s with
  | nil => rfl
  | cons n l ih =>
    obtain ⟨hn, hl⟩ := List.nodup_cons.1 h
    have others : ∀ m ∈ l, (putStation n (s.station n).cut s).station m = s.station m := fun m hm =>
      station_putStation_ne s n m _ (fun e => hn (e ▸ hm))
    have off : l.filter (putStation n (s.station n).cut s).leftOff = l.filter s.leftOff :=
      List.filter_congr fun m hm => by simp only [State.leftOff, others m hm]
    have reports : (l.filter s.leftOff).map (putStation n (s.station n).cut s).offReport = (l.filter s.leftOff).map s.offReport :=
      List.map_congr_left fun m hm => by simp only [State.offReport, others m (List.mem_of_mem_filter hm)]
    have slots : l.flatMap (putStation n (s.station n).cut s).dropSlots = l.flatMap s.dropSlots :=
      List.flatMap_congr fun m hm => by simp only [State.dropSlots, others m hm]; rfl
    have same : cutOffStation s n = { (putStation n (s.station n).cut s) with
        reg.pool := (cutOffStation s n).reg.pool, link := (cutOffStation s n).link } := by
      rw [cutOffStation_eq, queueReports_eq]; rfl
    have first : (n :: l).filter s.leftOff = (if s.leftOff n then [n] else []) ++ l.filter s.leftOff := by
      rw [List.filter_cons]; split <;> rfl
    rw [List.foldl_cons, ih hl]
    rw [show (cutOffStation s n).leftOff = (putStation n (s.station n).cut s).leftOff from by rw [same]; rfl,
      show (cutOffStation s n).offReport = (putStation n (s.station n).cut s).offReport from by rw [same]; rfl,
      show (cutOffStation s n).dropSlots = (putStation n (s.station n).cut s).dropSlots from by rw [same]; rfl,
      off, reports, slots, first, List.map_append, queueReports_append, List.flatMap_cons, disturb_append, cutOffStation_eq]
    simp only [queueReports_eq]
    split <;> rfl

/-- A station after the cut-off of different stations. -/
theorem cutStations_get {l : List StationId} (h : l.Nodup) (v : Vector Station 6) (m : StationId) :
    (cutStations v l)[m] = if m ∈ l then v[m].cut else v[m] := by
  induction l generalizing v with
  | nil => rfl
  | cons n l ih =>
    obtain ⟨hn, hl⟩ := List.nodup_cons.1 h
    have first : (v.set n.val v[n].cut n.isLt)[m] = if m = n then v[n].cut else v[m] := by
      simp only [Fin.getElem_fin, Vector.getElem_set, Fin.ext_iff]
      by_cases e : n.val = m.val
      · rw [if_pos e, if_pos e.symm]
      · rw [if_neg e, if_neg (Ne.symm e)]
    have unfolded : cutStations v (n :: l) = cutStations (v.set n.val v[n].cut n.isLt) l := rfl
    rw [unfolded, ih hl, first]
    by_cases e : m = n
    · subst e; rw [if_neg hn, if_pos rfl, if_pos (List.mem_cons_self)]
    · rw [if_neg e]; simp only [List.mem_cons, e, false_or]

/-- The sets under the insert head and the exit checks where they work. -/
def State.headSlots (s : State) : List Slot :=
  (if s.track.head.insert.isSome then (s.carrier 8).toList else []) ++
    (if s.track.scan.isSome || s.track.weigh.isSome then (s.carrier 10).toList else [])

/-- DISTURBED added where a condition holds. -/
theorem disturbIf_eq (b : Bool) (i : Option Slot) (s : State) :
    (if b then addFault? .disturbed i s else s) = s.disturb (if b then i.toList else []) := by
  cases b with
  | false => rfl
  | true => exact addFault?_disturbed i s

/-- R121: an insert cut off leaves the pocket REFILLING. -/
theorem cutOffInsert_eq (b : Bool) (i : Option Slot) (s : State) :
    (if b then addFault? .disturbed i { s with track.head.pocket := .refilling } else s) =
      ({ s with track.head.pocket := if b then .refilling else s.track.head.pocket } : State).disturb
        (if b then i.toList else []) := by
  cases b with
  | false => rfl
  | true => exact addFault?_disturbed i _

theorem cutOffHead_eq (s : State) : cutOffHead s = ({ s with
    track.head := { pocket := if s.track.head.insert = none then s.track.head.pocket else .refilling, insert := none, refill := none }
    track.scan := none, track.weigh := none } : State).disturb s.headSlots := by
  unfold cutOffHead
  simp only [cutOffInsert_eq, disturbIf_eq]
  rw [State.headSlots, disturb_append]
  cases e : s.track.head.insert <;> rfl

/-- The sets of the Track Controller's operations outstanding. -/
def State.trackSlots (s : State) : List Slot := s.indexSlots ++ allStations.flatMap s.dropSlots ++ s.headSlots

/-- The Track Controller with its operations cut off. -/
def State.cutTrack (s : State) : Track :=
  { s.track with
    index := none, stations := cutStations s.track.stations allStations, scan := none, weigh := none, delivery := none
    head := { pocket := if s.track.head.insert = none then s.track.head.pocket else .refilling, insert := none, refill := none } }

/-- R110: the reports of the stations that a stop leaves OFF. -/
def State.offReports (s : State) : List Report := (allStations.filter s.leftOff).map s.offReport

theorem cutOffTrack_eq (s : State) : cutOffTrack s =
    ({ s with track := s.cutTrack, link := s.link.pushAll s.time s.offReports } : State).disturb s.trackSlots := by
  unfold cutOffTrack
  simp only [cutOffHead_eq, foldl_cutOffStation_eq (show allStations.Nodup by decide), cutOffIndex_eq, queueReports_eq]
  rw [State.trackSlots, disturb_append, disturb_append]
  rfl

/-- R171: what a cut-off makes of the blocks: each operation outstanding ends where it started, and its set gets DISTURBED. -/
theorem cutOffAll_eq (s : State) : cutOffAll s =
    ({ s with coll := s.cutColl, sets := s.cutSets, track := s.cutTrack, link := s.link.pushAll s.time s.offReports } : State).disturb
      (s.feedSlots ++ (s.setSlots ++ s.trackSlots)) := by
  unfold cutOffAll
  rw [cutOffFeed_eq, cutOffSets_eq, cutOffTrack_eq, disturb_append, disturb_append]
  rfl

/-- A cut-off that leaves the sheet in transit. -/
theorem cutOffTrackSets_eq (s : State) : cutOffTrack (cutOffSets s) =
    ({ s with sets := s.cutSets, track := s.cutTrack, link := s.link.pushAll s.time s.offReports } : State).disturb
      (s.setSlots ++ s.trackSlots) := by
  rw [cutOffSets_eq, cutOffTrack_eq, disturb_append]
  rfl

end Sys2Proof.Machine
end

section
namespace Sys2Proof.Machine

variable {s : State}

/-! ### What a stop cuts off -/

/-- The sets of the operations that a stop cuts off. -/
def State.stopSlots (s : State) (feed : Bool) : List Slot := (if feed then s.feedSlots else []) ++ (s.setSlots ++ s.trackSlots)

theorem mem_feedSlots (i : Slot) :
    i ∈ s.feedSlots ↔ (s.feeding = true ∧ s.coll.current = some i) ∨ ∃ c, s.coll.transit = .decided i c := by
  unfold State.feedSlots State.feeding
  cases s.coll.transit with
  | none => simp
  | feeding tag reads timer => simp
  | decided j closes => simp [eq_comm]

theorem mem_setSlots (i : Slot) : i ∈ s.setSlots ↔
    (s.releasing = true ∧ s.sets.accumulator = some i) ∨ (s.folderAtRest = false ∧ s.sets.folderSet = some i) := by
  unfold State.setSlots
  cases s.releasing <;> cases s.folderAtRest <;> simp

theorem mem_carrierSets (i : Slot) : i ∈ s.carrierSets ↔ ∃ p : Position, s.carrier p = some i := by
  unfold State.carrierSets State.carrier
  simp [toList_eq_map_finRange]

theorem mem_indexSlots (i : Slot) : i ∈ s.indexSlots ↔
    s.track.index ≠ none ∧ (s.sets.buffer = some i ∨ ∃ p : Position, s.carrier p = some i) := by
  unfold State.indexSlots
  cases s.track.index with
  | none => simp
  | some x => simp [mem_carrierSets, or_comm]

theorem mem_allStations (n : StationId) : n ∈ allStations := by revert n; decide

theorem mem_flatMap_dropSlots (i : Slot) : i ∈ allStations.flatMap s.dropSlots ↔
    ∃ n : StationId, (s.station n).drop ≠ none ∧ s.carrier (stationPosition n) = some i := by
  have one : ∀ n, i ∈ s.dropSlots n ↔ (s.station n).drop ≠ none ∧ s.carrier (stationPosition n) = some i := by
    intro n
    unfold State.dropSlots
    cases (s.station n).drop <;> simp
  simp only [List.mem_flatMap, mem_allStations, true_and, one]

theorem mem_headSlots (i : Slot) : i ∈ s.headSlots ↔ (s.track.head.insert ≠ none ∧ s.carrier 8 = some i) ∨
    ((s.track.scan ≠ none ∨ s.track.weigh ≠ none) ∧ s.carrier 10 = some i) := by
  unfold State.headSlots
  cases s.track.head.insert <;> cases s.track.scan <;> cases s.track.weigh <;> simp

/-- R22, R95, R121: the sets that a stop marks are those with an operation outstanding. -/
theorem mem_stopSlots (feed : Bool) (i : Slot) : i ∈ s.stopSlots feed ↔ s.Outstanding feed i := by
  unfold State.stopSlots State.trackSlots State.Outstanding
  simp only [List.mem_append, mem_setSlots, mem_indexSlots, mem_flatMap_dropSlots, mem_headSlots, or_assoc]
  cases feed with
  | false => simp
  | true => simp only [if_true, mem_feedSlots, true_and, or_assoc]

theorem station_cutTrack (n : StationId) : s.cutTrack.stations[n] = (s.station n).cut := by
  have := cutStations_get (show allStations.Nodup by decide) s.track.stations n
  rw [if_pos (mem_allStations n)] at this
  exact this

theorem cut_of_idle {x : Station} (h : x.drop = none) :
    x.cut = match x.seq with | .running k _ => { x with seq := .waiting k } | _ => x := by
  unfold Station.cut
  rw [h]
  cases x.seq <;> rfl

theorem cut_of_drop {x : Station} (h : x.drop ≠ none) (p : x.pendingDisable = false) :
    x.cut = { x with state := .refilling, drop := none, seq := .waiting 1 } := by
  unfold Station.cut
  rw [if_pos (Option.isSome_iff_ne_none.2 h), p]; rfl

theorem cut_of_disabled {x : Station} (h : x.drop ≠ none) (p : x.pendingDisable = true) :
    x.cut = { x with
      state := .off, drop := none, seq := .none, pendingDisable := false, announce := x.announce && x.state == .off } := by
  unfold Station.cut
  rw [if_pos (Option.isSome_iff_ne_none.2 h), if_pos p]

/-- A state in which the line has stopped, its operations cut off. -/
def State.stopped (s : State) (feed : Bool) (first : List Report) (l : LineControl) : State :=
  ({ s with
    line := l, coll := if feed then s.cutColl else s.coll, sets := s.cutSets, track := s.cutTrack
    link := (s.link.pushAll s.time first).pushAll s.time s.offReports } : State).disturb (s.stopSlots feed)

/-- R22, R95, R121: what a stop makes of the operations outstanding. -/
theorem stopped_cutsOff (feed : Bool) (first : List Report) (l : LineControl) : s.CutsOff feed first (s.stopped feed first l) where
  disturbed i h := (setAt_disturb _ _ i).trans (if_pos ((mem_stopSlots feed i).2 h))
  unmarked i h := (setAt_disturb _ _ i).trans (if_neg fun m => h ((mem_stopSlots feed i).1 m))
  register := rfl
  fed tag reads timer hf ht := by
    subst hf
    change s.cutColl = _
    unfold State.cutColl
    rw [ht]
    cases tag <;> rfl
  unfed h := by
    change (if feed then s.cutColl else s.coll) = s.coll
    rcases h with rfl | h
    · rfl
    · unfold State.feeding at h
      unfold State.cutColl
      cases e : s.coll.transit with
      | none => simp
      | feeding tag reads timer => rw [e] at h; cases h
      | decided j closes => simp
  sets := rfl
  track := rfl
  refill n h := (station_cutTrack n).trans (cut_of_idle h)
  drop n h p := (station_cutTrack n).trans (cut_of_drop h p)
  disable n h p := (station_cutTrack n).trans (cut_of_disabled h p)
  report := by
    rw [queueReports_append, queueReports_eq, queueReports_eq]
    rfl
  others := rfl

/-- A line that enters a state out of motion changes nothing of the track. -/
theorem enterState_still {n : LineState} (h : n.motion = false) (r : Reason) (s : State) :
    enterState n r s = { s with line := { s.line with state := n }, link := s.link.push s.time (.stateChange n s.line.state r) } := by
  unfold enterState
  rw [h, Bool.or_false]
  rfl

theorem cutOffAll_stopped (first : List Report) (l : LineControl) :
    cutOffAll { s with line := l, link := s.link.pushAll s.time first } = s.stopped true first l := cutOffAll_eq _

theorem cutOffTrackSets_stopped (first : List Report) (l : LineControl) :
    cutOffTrack (cutOffSets { s with line := l, link := s.link.pushAll s.time first }) = s.stopped false first l :=
  cutOffTrackSets_eq _

/-- The line after a fault stop (R171). -/
def State.faultLine (s : State) (reason : Reason) : LineControl :=
  { s.line with
    state := .faultStop, stopReason := some reason, pendingPause := noSections
    returnState := if s.motion then some s.line.state else s.line.returnState }

theorem faultStop_motion {reason : Reason} (h : s.motion = true) :
    faultStop reason s = enterFaultStop reason { s with line.returnState := some s.line.state } := by
  unfold State.motion at h
  unfold faultStop
  split
  iterate 4 rfl
  · rename_i e; rw [e] at h; cases h
  · rename_i h1 h2 h3 h4 _
    cases e : s.line.state <;> simp_all [LineState.motion]

theorem faultStop_pausing {reason : Reason} (h : s.line.state = .pausing) : faultStop reason s = enterFaultStop reason s := by
  rw [faultStop, h]

/-- R53: outside the motion states and PAUSING a fault stop changes nothing. -/
theorem faultStop_rest {reason : Reason} (h : s.motion = false) (p : s.line.state ≠ .pausing) : faultStop reason s = s := by
  unfold State.motion at h
  unfold faultStop
  cases e : s.line.state <;> simp_all [LineState.motion]

/-- R171: a line that enters FAULT_STOP is stopped at once. -/
theorem enterFaultStop_eq {reason : Reason} {l : LineControl} (h : l.state = s.line.state) :
    enterFaultStop reason { s with line := l } = s.stopped true [.stateChange .faultStop s.line.state reason]
      { l with state := .faultStop, stopReason := some reason, pendingPause := noSections } := by
  rw [← h, ← cutOffAll_stopped, enterFaultStop, enterState_still rfl]; rfl

/-- R171: a fault stop of a line in a motion state or in PAUSING. -/
theorem faultStop_eq {reason : Reason} (h : s.motion = true ∨ s.line.state = .pausing) :
    faultStop reason s = s.stopped true [.stateChange .faultStop s.line.state reason] (s.faultLine reason) := by
  unfold State.faultLine
  by_cases m : s.motion = true
  · rw [faultStop_motion m, if_pos m]
    exact enterFaultStop_eq (l := { s.line with returnState := some s.line.state }) rfl
  · rw [faultStop_pausing (h.resolve_left m), if_neg m]
    exact enterFaultStop_eq (l := s.line) rfl

/-! ### A stopped line -/

theorem stopped_feeding (first : List Report) (l : LineControl) : (s.stopped true first l).feeding = false := by
  have transit : (s.stopped true first l).coll.transit = s.cutColl.transit := rfl
  rw [State.feeding, transit, State.cutColl]
  cases e : s.coll.transit <;> simp [e]

theorem stopped_releasing (feed : Bool) (first : List Report) (l : LineControl) : (s.stopped feed first l).releasing = false := by
  have release : (s.stopped feed first l).sets.release = if s.releasing then .pending else s.sets.release := rfl
  rw [State.releasing, release]
  cases h : s.releasing with
  | true => rfl
  | false =>
    unfold State.releasing at h
    cases e : s.sets.release <;> rw [e] at h <;> simp at h ⊢

theorem stopped_folderAtRest (feed : Bool) (first : List Report) (l : LineControl) :
    (s.stopped feed first l).folderAtRest = true := by
  have folder : (s.stopped feed first l).sets.folder = if s.folderAtRest then s.sets.folder else .waiting := rfl
  rw [State.folderAtRest, folder]
  cases h : s.folderAtRest with
  | false => rfl
  | true =>
    unfold State.folderAtRest at h
    cases e : s.sets.folder <;> rw [e] at h <;> simp at h ⊢

theorem cut_rests (x : Station) : (x.cut.drop.isSome || x.cut.seq.outstanding) = false := by
  unfold Station.cut
  split
  · split <;> rfl
  · rename_i h
    have none : x.drop.isSome = false := by simpa using h
    split
    · rename_i e; simp only [none, Bool.false_or]; rfl
    · rename_i e
      cases q : x.seq <;> simp_all [RefillSeq.outstanding]

theorem stopped_busy (feed : Bool) (first : List Report) (l : LineControl) : (s.stopped feed first l).track.busy = false := by
  have stations : s.cutTrack.stations.toList.any (fun st => st.drop.isSome || st.seq.outstanding) = false := by
    rw [toList_eq_map_finRange, List.any_map, List.any_eq_false]
    intro n _
    simp only [Function.comp_apply, station_cutTrack, cut_rests, Bool.false_eq_true, not_false_eq_true]
  have track : (s.stopped feed first l).track = s.cutTrack := rfl
  rw [track, Track.busy, stations]
  rfl

/-- R22: the sets on the carriers of an index that is cut off are DISTURBED. -/
theorem stopped_index {feed : Bool} {first : List Report} {l : LineControl} {p : Position} {j : Slot} {q : SetRecord}
    (index : s.track.index.isSome = true) (carrier : s.carrier p = some j) (holds : (s.stopped feed first l).setAt j = some q) :
    hasKind q.faults .disturbed = true := by
  have out : s.Outstanding feed j :=
    .inr (.inr (.inr (.inl ⟨Option.isSome_iff_ne_none.1 index, .inr ⟨p, carrier⟩⟩)))
  rw [(stopped_cutsOff feed first l).disturbed j out] at holds
  cases e : s.setAt j with
  | none => rw [e] at holds; cases holds
  | some r =>
    rw [e] at holds
    cases holds
    simp [hasKind, faultMask, faultBit]

end Sys2Proof.Machine
end

section
namespace Sys2Proof.Machine

variable {s : State}

/-! ### The timeouts (R93, R120, R122, R171) -/

@[simp] theorem zoneOfCode_ofNat (z : Fin 4) : zoneOfCode (BitVec.ofNat 8 z.val) = some z := by revert z; decide

@[simp] theorem sensorOfCode_ofNat (k : Fin 4) : sensorOfCode (BitVec.ofNat 8 (k.val + 1)) = some k := by revert k; decide

/-- Whether the timer of a timeout's command runs. -/
def State.runs (s : State) : Instr → Bool
  | .releaseTimeout => s.releasing
  | .moveTimeout => (match s.sets.folder with | .moving .. => true | _ => false)
  | .foldTimeout => (match s.sets.folder with | .folding _ => true | _ => false)
  | .indexTimeout => s.track.index.isSome
  | .weighTimeout => s.track.weigh.isSome
  | .deliveryTimeout => s.track.delivery.isSome
  | .jamTimerExpiry z k => (match zoneOfCode z, sensorOfCode k with
    | some z, some k => s.track.zones[z].sensors[k].timer.isSome
    | _, _ => false)
  | _ => false

/-- R93, R122: the timeouts of an operation, with the reason each gives. -/
def operationTimeouts : List (Instr × Reason) :=
  [(.releaseTimeout, .releaseTimeout), (.moveTimeout, .moveTimeout), (.foldTimeout, .foldTimeout), (.indexTimeout, .indexTimeout),
    (.weighTimeout, .weighTimeout), (.deliveryTimeout, .deliveryTimeout)]

/-- R93, R122: a timeout that runs asks for a fault stop, and any other is ignored. -/
theorem exec_timeout {c : Instr} {reason : Reason} (h : (c, reason) ∈ operationTimeouts) (s : State) :
    exec c s = .next (react (if s.runs c then faultStop reason s else s)) := by
  simp only [operationTimeouts, List.mem_cons, Prod.mk.injEq, List.not_mem_nil, or_false] at h
  rcases h with ⟨rfl, rfl⟩ | ⟨rfl, rfl⟩ | ⟨rfl, rfl⟩ | ⟨rfl, rfl⟩ | ⟨rfl, rfl⟩ | ⟨rfl, rfl⟩
  · rfl
  · change execMoveTimeout s = _
    rw [execMoveTimeout, State.runs]
    cases s.sets.folder <;> rfl
  · change execFoldTimeout s = _
    rw [execFoldTimeout, State.runs]
    cases s.sets.folder <;> rfl
  · rfl
  · rfl
  · rfl

/-- A state with a zone jammed by a sensor. -/
def State.withJam (s : State) (z k : Fin 4) : State := putZone z (jamZone k s.track.zones[z]) s

/-- R120: a jam timer that runs asks for a fault stop, and any other is ignored. -/
theorem exec_jamTimer (z k : Fin 4) (s : State) :
    exec (.jamTimerExpiry (BitVec.ofNat 8 z.val) (BitVec.ofNat 8 (k.val + 1))) s = .next (react
      (if s.track.zones[z].sensors[k].timer.isSome then faultStop (.jam (zoneAt z) k) (s.withJam z k) else s)) := by
  change execJamTimerExpiry _ _ s = _
  rw [execJamTimerExpiry, zoneOfCode_ofNat, sensorOfCode_ofNat]
  rfl

theorem runs_jamTimer (z k : Fin 4) : s.runs (.jamTimerExpiry (BitVec.ofNat 8 z.val) (BitVec.ofNat 8 (k.val + 1))) =
    s.track.zones[z].sensors[k].timer.isSome := by
  rw [State.runs, zoneOfCode_ofNat, sensorOfCode_ofNat]

/-- R120: a zone that becomes JAMMED, in the part of the state that no block changes. -/
theorem withJam_fixed (z k : Fin 4) (s : State) : (s.withJam z k).fixed =
    { s.fixed with zones := s.fixed.zones.set z.val { s.fixed.zones[z] with jammed := some k } z.isLt } := by
  have zone : (jamZone k s.track.zones[z]).still = { s.track.zones[z].still with jammed := some k } := by
    simp only [jamZone, JamZone.still, JamZone.mk.injEq, true_and]
    ext i hi : 1
    simp only [Vector.getElem_map, Vector.getElem_set]
    split
    · subst_vars; rfl
    · rfl
  have zones : (s.withJam z k).track.zones.map JamZone.still =
      s.fixed.zones.set z.val { s.fixed.zones[z] with jammed := some k } z.isLt := by
    simp only [Fin.getElem_fin] at zone
    simp only [State.withJam, putZone, State.fixed, Vector.map_set, zone, Fin.getElem_fin, Vector.getElem_map]
  simp only [State.fixed] at zones ⊢
  rw [zones]
  rfl

/-! ### What a fault stop leaves -/

/-- The end of a command that left the line in FAULT_STOP or as it was, of its own block's part of the state. -/
theorem react_faultStop_line (reason : Reason) (h : s.motion = true ∨ s.line.state = .pausing) :
    react (faultStop reason s) = refresh (watchZones
      (s.stopped true [.stateChange .faultStop s.line.state reason] (s.faultLine reason))) := by
  rw [faultStop_eq h]
  exact react_atRest rfl

/-- R53: a line at rest goes on. -/
theorem react_faultStop_atRest (reason : Reason) (h : s.line.state.atRest = true) :
    react (faultStop reason s) = refresh (watchZones s) := by
  rw [faultStop_rest (motion_of_atRest h) (by intro e; rw [e] at h; cases h)]
  exact react_atRest h

/-- R171: what the expiry of a running timer leaves, whatever its command. -/
def State.TimedOut (s : State) (reason : Reason) (t : State) : Prop :=
  (s.motion = true ∨ s.line.state = .pausing →
    t.line.state = .faultStop ∧ t.line.stopReason = some reason ∧
    t.line.returnState = (if s.motion then some s.line.state else s.line.returnState) ∧
    t.feeding = false ∧ t.releasing = false ∧ t.folderAtRest = true ∧ t.track.busy = false ∧
    (s.releasing = true → t.sets.release = .pending) ∧
    (s.track.index.isSome = true → ∀ (p : Position) j q, s.carrier p = some j → t.setAt j = some q →
      hasKind q.faults .disturbed = true)) ∧
  (s.line.state.atRest = true → t.line = s.line)

theorem faultStop_timedOut (reason : Reason) : s.TimedOut reason (react (faultStop reason s)) := by
  refine ⟨fun h => ?_, fun h => ?_⟩
  · rw [react_faultStop_line reason h]
    let first : List Report := [.stateChange .faultStop s.line.state reason]
    let line := s.faultLine reason
    refine ⟨rfl, rfl, rfl, stopped_feeding first line, stopped_releasing true first line, stopped_folderAtRest true first line,
      stopped_busy true first line, ?_, ?_⟩
    · intro releasing
      change (if s.releasing then Release.pending else s.sets.release) = _
      rw [if_pos releasing]
    · exact fun index p j q carrier holds => stopped_index index carrier holds
  · rw [react_faultStop_atRest reason h]
    rfl

theorem faultStop_keeps (reason : Reason) (quiet : s.NoSweep) :
    (react (faultStop reason s)).flow = s.flow ∧ (react (faultStop reason s)).fixed = s.fixed := by
  have settles := faultStop_settles s reason
  exact ⟨(react_flow _ (settles.noSweep quiet)).trans settles.flow, (react_fixed _).trans settles.fixed⟩

/-- Settles O35, by the stop written out as one state, and the timeouts that ask for it. -/
theorem timeoutsStopLine : Obligations.TimeoutsStopLine := by
  refine ⟨fun s reason => ⟨fun h => ?_, faultStop_rest⟩, fun s => ⟨?_, ?_, ?_, ?_, ?_, ?_, ?_⟩, ?_⟩
  · rw [faultStop_eq h]
    exact ⟨stopped_cutsOff _ _ _, rfl⟩
  · exact fun h => (exec_timeout (reason := .releaseTimeout) (by simp [operationTimeouts]) s).trans (by rw [State.runs, if_pos h])
  · exact fun _ _ _ h => (exec_timeout (reason := .moveTimeout) (by simp [operationTimeouts]) s).trans (by rw [State.runs, h]; rfl)
  · exact fun _ h => (exec_timeout (reason := .foldTimeout) (by simp [operationTimeouts]) s).trans (by rw [State.runs, h]; rfl)
  · exact fun h => (exec_timeout (reason := .indexTimeout) (by simp [operationTimeouts]) s).trans
      (by rw [State.runs, if_pos (Option.isSome_iff_ne_none.2 h)])
  · exact fun h => (exec_timeout (reason := .weighTimeout) (by simp [operationTimeouts]) s).trans
      (by rw [State.runs, if_pos (Option.isSome_iff_ne_none.2 h)])
  · exact fun h => (exec_timeout (reason := .deliveryTimeout) (by simp [operationTimeouts]) s).trans
      (by rw [State.runs, if_pos (Option.isSome_iff_ne_none.2 h)])
  · exact fun z k h => (exec_jamTimer z k s).trans (by rw [if_pos (Option.isSome_iff_ne_none.2 h)]; rfl)
  · rintro s c reason quiet h
    refine ⟨s.runs c, rfl, ?_⟩
    cases running : s.runs c with
    | false =>
      have ignored : exec c s = .next (react s) := by
        rcases h with h | ⟨z, k, rfl, rfl⟩
        · rw [exec_timeout h, running]; rfl
        · rw [exec_jamTimer, ← runs_jamTimer, running]; rfl
      exact ⟨react s, ignored, react_flow s quiet, fun _ => react_fixed s, fun e => absurd e Bool.false_ne_true,
        fun e => absurd e Bool.false_ne_true, fun _ _ _ e => absurd e Bool.false_ne_true⟩
    | true =>
      rcases h with h | ⟨z, k, rfl, rfl⟩
      · obtain ⟨stopped, rests⟩ := faultStop_timedOut (s := s) reason
        obtain ⟨flow, fixed⟩ := faultStop_keeps reason quiet
        refine ⟨react (faultStop reason s), by rw [exec_timeout h, running]; rfl, flow, fun _ => fixed, fun _ => stopped,
          fun _ => rests, ?_⟩
        rintro z k rfl
        simp at h
      · obtain ⟨stopped, rests⟩ := faultStop_timedOut (s := s.withJam z k) (.jam (zoneAt z) k)
        obtain ⟨flow, fixed⟩ := faultStop_keeps (s := s.withJam z k) (.jam (zoneAt z) k) quiet
        refine ⟨react (faultStop (.jam (zoneAt z) k) (s.withJam z k)), by rw [exec_jamTimer, ← runs_jamTimer, running]; rfl, flow,
          fun e => absurd rfl (e rfl _ _), fun _ => stopped, fun _ => rests, ?_⟩
        intro z' k' same _
        have codes : zoneOfCode (BitVec.ofNat 8 z.val) = zoneOfCode (BitVec.ofNat 8 z'.val) ∧
            sensorOfCode (BitVec.ofNat 8 (k.val + 1)) = sensorOfCode (BitVec.ofNat 8 (k'.val + 1)) := by
          injection same with e1 e2
          rw [e1, e2]; exact ⟨rfl, rfl⟩
        simp only [zoneOfCode_ofNat, sensorOfCode_ofNat, Option.some.injEq] at codes
        obtain ⟨rfl, rfl⟩ := codes
        rw [fixed, withJam_fixed]

end Sys2Proof.Machine
end

section
namespace Sys2Proof.Machine

variable {s : State}

/-! ### A pause (R162, R164) -/

/-- The line after a pause asked for in PURGE, PROVING or RUNNING. -/
def State.pausingLine (s : State) (reason : Reason) : LineControl :=
  { s.line with state := .pausing, returnState := some s.line.state, stopReason := some reason, pendingPause := s.notAtRest }

/-- R162: a pause in PURGE, PROVING or RUNNING. -/
theorem pauseLine_eq {reason : Reason} (h : s.line.state = .purge ∨ s.line.state = .proving ∨ s.line.state = .running) :
    pauseLine reason s =
      { s with line := s.pausingLine reason, link := s.link.push s.time (.stateChange .pausing s.line.state reason) } := by
  have enter : pauseLine reason s = enterState .pausing reason
      { s with line.returnState := some s.line.state, line.stopReason := some reason, line.pendingPause := s.notAtRest } := by
    rcases h with h | h | h <;> rw [pauseLine, h]
  rw [enter, enterState_still rfl]
  rfl

/-- R162: in any other line state a pause changes nothing. -/
theorem pauseLine_other {reason : Reason} (h : s.line.state ≠ .purge) (p : s.line.state ≠ .proving) (r : s.line.state ≠ .running) :
    pauseLine reason s = s := by
  unfold pauseLine
  cases e : s.line.state <;> simp_all

/-- R164: the line at the end of a command that found or left it in PAUSING. -/
theorem react_pausing_line (h : s.line.state = .pausing) : (react s).line =
    { s.line with state := if s.notAtRest = noSections then .paused else .pausing, pendingPause := s.notAtRest } := by
  by_cases r : s.notAtRest = noSections
  · rw [react_pausing_rested h r, if_pos r, r]
    rfl
  · rw [react_pausing_pending h r, if_neg r, ← h]
    rfl

/-- R162, R164: the line at the end of a command that paused it. -/
theorem react_pauseLine_line {reason : Reason} (h : s.line.state = .purge ∨ s.line.state = .proving ∨ s.line.state = .running) :
    (react (pauseLine reason s)).line = { s.line with
      state := if s.notAtRest = noSections then .paused else .pausing
      returnState := some s.line.state, stopReason := some reason, pendingPause := s.notAtRest } := by
  rw [pauseLine_eq h]
  exact react_pausing_line (s := { s with
    line := s.pausingLine reason, link := s.link.push s.time (.stateChange .pausing s.line.state reason) }) rfl

/-! ### What a stop keeps -/

theorem stopped_settles (feed : Bool) (first : List Report) (l : LineControl) :
    Settles { s with line := l, link := s.link.pushAll s.time first } (s.stopped feed first l) := by
  cases feed with
  | true => rw [← cutOffAll_stopped]; exact cutOffAll_settles _
  | false => rw [← cutOffTrackSets_stopped]; exact (cutOffSets_settles _).trans (cutOffTrack_settles _)

theorem stopped_flow (feed : Bool) (first : List Report) (l : LineControl) : (s.stopped feed first l).flow = s.flow :=
  (stopped_settles feed first l).flow

theorem stopped_fixed (feed : Bool) (first : List Report) (l : LineControl) :
    (s.stopped feed first l).fixed = { s.fixed with key := l.key, interlock := l.interlock } := by
  have reports := (queueReports_settles { s with line := l } first).fixed
  rw [queueReports_eq] at reports
  exact (stopped_settles feed first l).fixed.trans reports

/-! ### The guard interlock (R173, R174) -/

/-- The line in INTERLOCK. -/
def State.interlockLine (s : State) : LineControl :=
  { s.line with
    state := .interlock, origin := some s.line.state, interlock := .opened, pendingPause := noSections
    returnState := if s.motion then some s.line.state else s.line.returnState }

/-- R173: the report of the line's entry of INTERLOCK. -/
def State.interlockReport (s : State) : Report := .stateChange .interlock s.line.state .interlockOpen

/-- The state in which what is outstanding is cut off. -/
theorem enterInterlock_eq (s : State) : enterInterlock { s with line.interlock := .opened } =
    (if (s.motion || s.line.state == .pausing) = true
      then cutOffAll { s with line := s.interlockLine, link := s.link.pushAll s.time [s.interlockReport] }
      else cutOffTrack (cutOffSets { s with line := s.interlockLine, link := s.link.pushAll s.time [s.interlockReport] })) := by
  have motion : State.motion { s with line.interlock := .opened } = s.motion := rfl
  unfold enterInterlock State.interlockLine
  rw [motion]
  cases s.motion with
  | true => simp only [if_true, Bool.true_or, enterState_still (show LineState.motion .interlock = false from rfl)]; rfl
  | false =>
    simp only [Bool.false_eq_true, if_false, Bool.false_or, enterState_still (show LineState.motion .interlock = false from rfl)]
    rfl

/-- R173: the line enters INTERLOCK, and what is outstanding is cut off. -/
theorem guardOpened_eq (job : s.jobOpen = true) (state : s.line.state ≠ .interlock) : guardOpened s =
    s.stopped (s.motion || s.line.state == .pausing) [s.interlockReport] s.interlockLine := by
  have opened : guardOpened s = enterInterlock { s with line.interlock := .opened } := by
    rw [guardOpened, job, bne_iff_ne.2 state]; rfl
  rw [opened, enterInterlock_eq, cutOffAll_stopped, cutOffTrackSets_stopped]
  cases s.motion || s.line.state == .pausing <;> rfl

/-- R173: with no job open, or in INTERLOCK, the guard's opening is only recorded. -/
theorem guardOpened_recorded (h : s.jobOpen = false ∨ s.line.state = .interlock) :
    guardOpened s = { s with line.interlock := .opened } := by
  unfold guardOpened
  rcases h with h | h <;> simp [h]

/-- The line that leaves INTERLOCK (R174). -/
def State.closedLine (s : State) : LineControl :=
  { s.line with
    interlock := .closed, origin := none
    state := match s.line.origin with
      | some .jobIdle => .jobIdle
      | some .sweep => .sweep
      | _ => .faultStop
    stopReason := match s.line.origin with
      | some .jobIdle | some .sweep | some .faultStop => s.line.stopReason
      | _ => some .interlock }

/-- R174: the guard's closing in INTERLOCK. -/
theorem guardClosed_eq (h : s.line.state = .interlock) : guardClosed s =
    { s with line := s.closedLine, link := s.link.push s.time (.stateChange s.closedLine.state .interlock .interlockClosed) } := by
  rw [guardClosed, if_pos h]
  unfold leaveInterlock State.closedLine
  rw [← h]
  split <;> rename_i e <;> simp only at e
  · rw [enterState_still rfl]; simp [e]
  · rw [enterState_still rfl]; simp [e]
  · rw [enterState_still rfl]; simp [e]
  · rw [enterState_still rfl]
    rename_i h1 h2 h3
    split <;> simp_all

theorem closedLine_atRest (h : s.line.origin ≠ some .sweep) : s.closedLine.state.atRest = true := by
  unfold State.closedLine
  simp only
  split
  · rfl
  · rename_i e; exact absurd e h
  · rfl

theorem closedLine_of_ne_sweep (h : s.line.origin ≠ some .sweep) : s.closedLine = { s.line with
    interlock := .closed, origin := none
    state := if s.line.origin = some .jobIdle then .jobIdle else .faultStop
    stopReason := if s.line.origin = some .jobIdle ∨ s.line.origin = some .faultStop then s.line.stopReason else some .interlock } := by
  unfold State.closedLine
  cases e : s.line.origin with
  | none => rfl
  | some x => cases x <;> first | rfl | exact absurd e h

theorem closedLine_of_sweep (h : s.line.origin = some .sweep) :
    s.closedLine = { s.line with interlock := .closed, origin := none, state := .sweep } := by
  unfold State.closedLine
  rw [h]

/-! ### The key (R163) -/

/-- R163: a turn of the key to SETUP outside PURGE, PROVING and RUNNING is recorded. -/
theorem keyTurned_recorded {position : KeyPosition} (h : s.line.state ≠ .purge) (p : s.line.state ≠ .proving)
    (r : s.line.state ≠ .running) : keyTurned position s = { s with line.key := position } := by
  cases position with
  | run => rfl
  | setup => exact pauseLine_other (s := { s with line.key := .setup }) h p r

/-- R163: a turn of the key to SETUP pauses the line. -/
theorem keyTurned_pauses (h : s.line.state = .purge ∨ s.line.state = .proving ∨ s.line.state = .running) (quiet : s.NoSweep) :
    ∃ t, exec (.keyswitch .setup) s = .next t ∧ t.flow = s.flow ∧ t.fixed = { s.fixed with key := .setup } ∧
      t.line = { s.line with
        key := .setup, state := if s.notAtRest = noSections then .paused else .pausing
        returnState := some s.line.state, stopReason := some .key, pendingPause := s.notAtRest } := by
  have settles := pauseLine_settles { s with line.key := .setup } .key
  refine ⟨react (keyTurned .setup s), rfl, ?_, ?_, react_pauseLine_line (s := { s with line.key := .setup }) h⟩
  · exact (react_flow _ (settles.noSweep quiet)).trans settles.flow
  · exact (react_fixed _).trans settles.fixed

/-- R163: in PAUSING a turn of the key to SETUP is recorded, and the line goes on pausing. -/
theorem keyTurned_pausing (h : s.line.state = .pausing) :
    ∃ t, exec (.keyswitch .setup) s = .next t ∧ t.fixed = { s.fixed with key := .setup } ∧
      t.line.stopReason = s.line.stopReason ∧ (s.notAtRest ≠ noSections → t.line.state = .pausing) := by
  have recorded : keyTurned .setup s = { s with line.key := .setup } := keyTurned_recorded (by simp [h]) (by simp [h]) (by simp [h])
  have line := react_pausing_line (s := { s with line.key := .setup }) h
  refine ⟨react (keyTurned .setup s), rfl, ?_, ?_, fun busy => ?_⟩
  · rw [recorded, react_fixed]; rfl
  · rw [recorded, line]
  · rw [recorded, line]
    exact if_neg busy

/-- R163: on a line at rest a turn of the key is recorded. -/
theorem keyTurned_atRest (h : s.line.state.atRest = true) (position : KeyPosition) :
    ∃ t, exec (.keyswitch position) s = .next t ∧
      t.line = { s.line with key := position } ∧ t.link = s.link ∧ t.reg = s.reg ∧ t.sets = s.sets := by
  have recorded : keyTurned position s = { s with line.key := position } :=
    keyTurned_recorded (by intro e; rw [e] at h; cases h) (by intro e; rw [e] at h; cases h) (by intro e; rw [e] at h; cases h)
  refine ⟨react (keyTurned position s), rfl, ?_⟩
  rw [recorded, react_atRest (s := { s with line.key := position }) h]
  exact ⟨rfl, rfl, rfl, rfl⟩

/-- R173: the guard's opening with a job open. -/
theorem interlockOpen_stops (job : s.jobOpen = true) (state : s.line.state ≠ .interlock) :
    ∃ t, exec .interlockOpen s = .next t ∧ t.flow = s.flow ∧ t.fixed = { s.fixed with interlock := .opened } ∧
      t.line = s.interlockLine ∧
      (s.motion = true ∨ s.line.state = .pausing →
        t.feeding = false ∧ t.releasing = false ∧ t.folderAtRest = true ∧ t.track.busy = false) ∧
      ∃ u, t = react u ∧ u.line = t.line ∧ s.CutsOff (s.motion || s.line.state == .pausing) [s.interlockReport] u := by
  have opened := guardOpened_eq job state
  have rest : react (guardOpened s) = refresh (watchZones (guardOpened s)) := react_atRest (by rw [opened]; rfl)
  refine ⟨react (guardOpened s), rfl, ?_, ?_, ?_, ?_, guardOpened s, rfl, by rw [rest]; rfl, ?_⟩
  · rw [rest, opened]; exact stopped_flow _ _ _
  · rw [react_fixed, opened]; exact stopped_fixed _ _ _
  · rw [rest, opened]; rfl
  · intro moving
    have feed : (s.motion || s.line.state == .pausing) = true := by simpa using moving
    rw [feed] at opened
    rw [rest, opened]
    exact ⟨stopped_feeding [s.interlockReport] s.interlockLine, stopped_releasing true [s.interlockReport] s.interlockLine,
      stopped_folderAtRest true [s.interlockReport] s.interlockLine, stopped_busy true [s.interlockReport] s.interlockLine⟩
  · rw [opened]; exact stopped_cutsOff _ _ _

/-- Settles O60, by the pause and the stop written out as states. -/
theorem keyAndGuardStopLine : Obligations.KeyAndGuardStopLine := by
  refine ⟨fun s => ⟨keyTurned_pauses, keyTurned_pausing, keyTurned_atRest, rfl⟩,
    fun s => ⟨interlockOpen_stops, fun h rest => ?_, fun h => ⟨fun origin => ?_, fun origin => ?_⟩, fun h => ?_⟩⟩
  · refine ⟨react (guardOpened s), rfl, ?_⟩
    rw [guardOpened_recorded h, react_atRest (s := { s with line.interlock := .opened }) rest]
    exact ⟨rfl, rfl, rfl⟩
  · have closed := guardClosed_eq h
    have rest : react (guardClosed s) = refresh (watchZones (guardClosed s)) :=
      react_atRest (by rw [closed]; exact closedLine_atRest origin)
    refine ⟨react (guardClosed s), rfl, ?_, ?_, ?_⟩
    · rw [rest, closed]; rfl
    · rw [react_fixed, closed]; rfl
    · rw [rest, closed]; exact closedLine_of_ne_sweep origin
  · refine ⟨guardClosed s, rfl, ?_⟩
    rw [guardClosed_eq h]
    exact closedLine_of_sweep origin
  · change Host.Outcome.next (react (guardClosed s)) = _
    rw [guardClosed, if_neg h]

end Sys2Proof.Machine
end

section
namespace Sys2Proof.Machine

variable {s : State}

/-! ### Refills begun (R104, R108) -/

/-- A station that begins a refill sequence. -/
def Station.refilled (x : Station) : Station :=
  { x with state := .refilling, seq := .waiting 1
           announce := if x.state = .refilling then x.announce else x.state.reported }

/-- R110: the report of a station that begins a refill sequence. -/
def refillReports (n : StationId) (x : Station) (cause : StationCause) : List Report :=
  if x.state.reported then [.stationChange n x.state .refilling cause] else []

/-- R110: a station that is not REFILLING comes to be. -/
theorem changeStation_refilling {n : StationId} {cause : StationCause} (h : (s.station n).state ≠ .refilling) :
    changeStation n .refilling cause s = queueReports (refillReports n (s.station n) cause)
      (putStation n { s.station n with state := .refilling, announce := (s.station n).state.reported } s) := by
  have quiet : StationState.reported .refilling = false := rfl
  unfold changeStation refillReports
  simp only [if_neg h, quiet, BEq.rfl, Bool.and_true, Bool.or_false]
  split <;> rfl

theorem refilled_of_refilling {x : Station} (h : x.state = .refilling) : x.refilled = { x with seq := .waiting 1 } := by
  rw [Station.refilled, if_pos h, ← h]

theorem refilled_of_ne {x : Station} (h : x.state ≠ .refilling) :
    x.refilled = { x with state := .refilling, seq := .waiting 1, announce := x.state.reported } := by
  rw [Station.refilled, if_neg h]

theorem putStation_queueReports (n : StationId) (x : Station) (rs : List Report) (s : State) :
    putStation n x (queueReports rs s) = queueReports rs (putStation n x s) := by
  rw [queueReports_eq, queueReports_eq]; rfl

theorem startRefill_eq (n : StationId) (cause : StationCause) (s : State) : startRefill n cause s =
    queueReports (refillReports n (s.station n) cause) (putStation n (s.station n).refilled s) := by
  unfold startRefill
  by_cases h : (s.station n).state = .refilling
  · have same : changeStation n .refilling cause s = s := if_pos h
    have quiet : refillReports n (s.station n) cause = [] := by rw [refillReports, h]; rfl
    rw [same, quiet, refilled_of_refilling h]
    rfl
  · have station : (changeStation n .refilling cause s).station n =
        { s.station n with state := .refilling, announce := (s.station n).state.reported } := by
      rw [changeStation_refilling h, queueReports_eq]
      exact station_putStation_self s n _
    simp only [station]
    rw [changeStation_refilling h, refilled_of_ne h, putStation_queueReports, putStation_putStation]

/-- What refills of stations write: the stations and the link. -/
theorem startRefill_station (n m : StationId) (cause : StationCause) (s : State) :
    (startRefill n cause s).station m = if m = n then (s.station n).refilled else s.station m := by
  rw [startRefill_eq, queueReports_eq]
  exact station_putStation n m _ s

theorem startRefill_shape (n : StationId) (cause : StationCause) (s : State) :
    ∃ st l, startRefill n cause s = { s with track.stations := st, link := l } := by
  rw [startRefill_eq, queueReports_eq]
  exact ⟨_, _, rfl⟩

theorem startRefill_settles (n : StationId) (cause : StationCause) (s : State) : Settles s (startRefill n cause s) := by
  rw [startRefill_eq]
  exact (putStation_settles s n _).trans (queueReports_settles _ _)

/-- R104, R108: the stations that one command refills, each once, for a cause: those that the tables and their own state name. -/
structure Refills (f : State → StationId → State) (named : Plant → StationId → Station → Bool) (cause : StationCause) : Prop where
  one : ∀ s n, f s n = if named s.plant n (s.station n) then startRefill n cause s else s

namespace Refills

variable {f : State → StationId → State} {named : Plant → StationId → Station → Bool} {cause : StationCause}

theorem shape (h : Refills f named cause) (l : List StationId) (s : State) :
    ∃ st k, l.foldl f s = { s with track.stations := st, link := k } := by
  induction l generalizing s with
  | nil => exact ⟨s.track.stations, s.link, rfl⟩
  | cons n l ih =>
    have first : ∃ st k, f s n = { s with track.stations := st, link := k } := by
      rw [h.one]; split
      · exact startRefill_shape n cause s
      · exact ⟨s.track.stations, s.link, rfl⟩
    obtain ⟨st, k, e⟩ := first
    obtain ⟨st', k', e'⟩ := ih (f s n)
    exact ⟨st', k', by rw [List.foldl_cons, e', e]⟩

theorem settles (h : Refills f named cause) (l : List StationId) (s : State) : Settles s (l.foldl f s) :=
  Settles.foldl (fun s n => by
    rw [h.one]; split
    · exact startRefill_settles n cause s
    · exact .refl s) l s

theorem station (h : Refills f named cause) {l : List StationId} (distinct : l.Nodup) (s : State) (m : StationId) :
    (l.foldl f s).station m = if m ∈ l ∧ named s.plant m (s.station m) = true then (s.station m).refilled else s.station m := by
  induction l generalizing s with
  | nil => simp
  | cons n l ih =>
    obtain ⟨hn, hl⟩ := List.nodup_cons.1 distinct
    have first : (f s n).station m =
        if m = n ∧ named s.plant n (s.station n) = true then (s.station n).refilled else s.station m := by
      rw [h.one]
      by_cases q : named s.plant n (s.station n) = true
      · rw [if_pos q, startRefill_station]; simp [q]
      · rw [if_neg q]; simp [q]
    have plant : (f s n).plant = s.plant := by
      obtain ⟨st, k, e⟩ := h.shape [n] s
      rw [show f s n = _ from e]
    rw [List.foldl_cons, ih hl, first, plant]
    by_cases e : m = n
    · subst e; simp [hn]
    · simp [e]

/-- All six stations. -/
theorem all (h : Refills f named cause) (s : State) (m : StationId) : (allStations.foldl f s).station m =
    if named s.plant m (s.station m) = true then (s.station m).refilled else s.station m := by
  rw [h.station (by decide)]
  simp only [mem_allStations, true_and]

end Refills

/-- R104: the stations that OpenJob and StartLine refill. -/
theorem jobRefill_refills : Refills jobRefill
    (fun p n x => decide ((x.state = .off ∧ p.stations[n].enabled = true) ∨ x.state = .empty)) .job :=
  ⟨fun s n => by simp only [jobRefill, decide_eq_true_eq]⟩

/-- R108: the stations that Resume refills. -/
theorem resumeRefill_refills : Refills resumeRefill (fun _ _ x => decide (x.state = .empty)) .resume :=
  ⟨fun s n => by simp only [resumeRefill, decide_eq_true_eq]⟩

/-! ### The completion of a set (R20) and the entry of RUNOUT (R21, R166) -/

/-- R46: the counters after a set with these faults completes. -/
def Counters.completed (k : Counters) (faults : FaultSet) : Counters :=
  if faults = 0 then { k with good := min (k.good + 1) 4294967295 } else { k with faulted := min (k.faulted + 1) 4294967295 }

/-- R20, R46, R84: the completion of a set. -/
theorem completeSet_some {i : Slot} {r : SetRecord} (h : s.setAt i = some r) : completeSet i s = { s with
    reg := { s.reg with
      pool := s.reg.pool.set i.val (some (s.completedRecord r)) i.isLt
      counters := s.reg.counters.completed (s.completedRecord r).faults }
    sets.release := .pending } := by
  rw [completeSet, h]
  unfold Counters.completed
  simp only
  split <;> rfl

theorem completeSet_none {i : Slot} (h : s.setAt i = none) : completeSet i s = s := by rw [completeSet, h]

/-- What the completion of a set writes. -/
theorem completeSet_shape (i : Slot) (s : State) :
    ∃ p k r, completeSet i s = { s with reg.pool := p, reg.counters := k, sets.release := r } := by
  cases h : s.setAt i with
  | none => exact ⟨s.reg.pool, s.reg.counters, s.sets.release, completeSet_none h⟩
  | some r => exact ⟨_, _, _, completeSet_some h⟩

/-- R21: with no bundle open there is none to close. -/
theorem closeOpenBundle_none (h : s.coll.state ≠ .hunt ∨ s.coll.current = none) : closeOpenBundle s = s := by
  unfold closeOpenBundle
  split
  · rename_i hunt current
    rcases h with h | h
    · exact absurd hunt h
    · rw [h] at current; cases current
  · rfl

/-- R21: HUNT is left with its bundle. -/
theorem closeOpenBundle_left {i : Slot} (hunt : s.coll.state = .hunt) (current : s.coll.current = some i) :
    ∃ x p k r, closeOpenBundle s = { s with
      coll := { s.coll with state := .setStart, current := none, huntCount := 0, transit := x }
      reg.pool := p, reg.counters := k, sets.release := r } := by
  rw [closeOpenBundle, hunt, current]
  obtain ⟨p, k, r, e⟩ := completeSet_shape i
    { s with coll := { s.coll with state := .setStart, current := none, huntCount := 0 } }
  simp only
  split
  · split
    · exact ⟨_, s.reg.pool, s.reg.counters, s.sets.release, rfl⟩
    · exact ⟨s.coll.transit, p, k, r, e⟩
  · exact ⟨s.coll.transit, p, k, r, e⟩

/-- What the close of an open bundle writes. -/
theorem closeOpenBundle_shape (s : State) :
    ∃ c p k r, closeOpenBundle s = { s with coll := c, reg.pool := p, reg.counters := k, sets.release := r } := by
  by_cases h : s.coll.state ≠ .hunt ∨ s.coll.current = none
  · exact ⟨s.coll, s.reg.pool, s.reg.counters, s.sets.release, closeOpenBundle_none h⟩
  · simp only [not_or, not_not] at h
    obtain ⟨i, hi⟩ := Option.ne_none_iff_exists'.1 h.2
    obtain ⟨x, p, k, r, e⟩ := closeOpenBundle_left h.1 hi
    exact ⟨_, p, k, r, e⟩

/-- The line in RUNOUT. -/
def State.runoutLine (s : State) (target : RunoutTarget) : LineControl :=
  { s.line with state := .runout, returnState := none, pendingPause := noSections, runoutTarget := target }

/-- The state that enters RUNOUT, its bundle not yet closed. -/
def State.inRunout (s : State) (target : RunoutTarget) (reason : Reason) : State :=
  { s with line := s.runoutLine target, link := s.link.push s.time (.stateChange .runout s.line.state reason)
           track.assignDue := true }

theorem enterRunout_eq (target : RunoutTarget) (reason : Reason) (s : State) :
    enterRunout target reason s = closeOpenBundle (s.inRunout target reason) := by
  unfold enterRunout enterState
  rw [show LineState.motion .runout = true from rfl, Bool.or_true]
  rfl

/-! ### StopLine and EndJob (R166, R167) -/

/-- R61: active proving abandoned. -/
theorem abandonProving_eq (s : State) :
    abandonProving s = { s with mon.proving := if s.mon.proving = .active then .abandoned else s.mon.proving } := by
  unfold abandonProving
  split <;> rfl

/-- R166: the line that is to run out, its EMPTY stations not yet refilled. -/
def State.runningOut (s : State) (target : RunoutTarget) : State := enterRunout target .host (abandonProving s)

/-- R166: a line that was at rest refills its EMPTY stations. -/
theorem stopInto_rested (target : RunoutTarget) (h : s.line.state = .pausing ∨ s.line.state = .paused) :
    stopInto target s = resumeRefills (s.runningOut target) := by
  rcases h with h | h <;> rw [stopInto, h] <;> rfl

theorem stopInto_moving (target : RunoutTarget) (h : s.line.state ≠ .pausing) (p : s.line.state ≠ .paused) :
    stopInto target s = s.runningOut target := by
  unfold stopInto
  split
  · rename_i e; exact absurd e h
  · rename_i e; exact absurd e p
  · rfl

/-- R166: the bundle of a line that runs out is closed. -/
theorem runningOut_eq (target : RunoutTarget) (s : State) :
    s.runningOut target = closeOpenBundle ((abandonProving s).inRunout target .host) := enterRunout_eq _ _ _

/-- What `stopInto` leaves to `react`, but for the stations and the link. -/
structure RanOut (s : State) (target : RunoutTarget) (u : State) : Prop where
  line : u.line = s.runoutLine target
  mon : u.mon = { s.mon with proving := if s.mon.proving = .active then .abandoned else s.mon.proving }
  fixed : u.fixed = s.fixed
  queue : u.reg.queue = s.reg.queue
  window : u.reg.window = s.reg.window
  diverts : u.reg.diverts = s.reg.diverts
  carriers : u.track.carriers = s.track.carriers
  accumulator : u.sets.accumulator = s.sets.accumulator
  left : ∀ i, s.coll.state = .hunt → s.coll.current = some i → u.coll.state = .setStart ∧ u.coll.current = none
  noBundle : s.coll.state ≠ .hunt → u.coll = s.coll ∧ u.reg = s.reg ∧ u.sets = s.sets

theorem runningOut_ranOut (target : RunoutTarget) (s : State) : RanOut s target (s.runningOut target) := by
  rw [runningOut_eq, abandonProving_eq]
  generalize hx : State.inRunout _ target .host = x
  obtain ⟨c, p, k, r, e⟩ := closeOpenBundle_shape x
  constructor
  case left =>
    intro i hunt current
    obtain ⟨y, p, k, r, e⟩ := closeOpenBundle_left (s := x) (i := i) (by rw [← hx]; exact hunt) (by rw [← hx]; exact current)
    rw [e]
    exact ⟨rfl, rfl⟩
  case noBundle =>
    intro h
    rw [closeOpenBundle_none (.inl (by rw [← hx]; exact h)), ← hx]
    exact ⟨rfl, rfl, rfl⟩
  all_goals rw [e, ← hx]; rfl

/-- Refills leave what `RanOut` says. -/
theorem RanOut.resume {target : RunoutTarget} {u : State} (h : RanOut s target u) : RanOut s target (resumeRefills u) := by
  have fixed := (resumeRefill_refills.settles allStations u).fixed
  obtain ⟨st, k, e⟩ := resumeRefill_refills.shape allStations u
  unfold resumeRefills
  constructor
  case fixed => exact fixed.trans h.fixed
  case line => rw [e]; exact h.line
  case mon => rw [e]; exact h.mon
  case queue => rw [e]; exact h.queue
  case window => rw [e]; exact h.window
  case diverts => rw [e]; exact h.diverts
  case carriers => rw [e]; exact h.carriers
  case accumulator => rw [e]; exact h.accumulator
  case left => rw [e]; exact h.left
  case noBundle => rw [e]; exact h.noBundle

theorem stopInto_ranOut (target : RunoutTarget) (s : State) : RanOut s target (stopInto target s) := by
  by_cases h : s.line.state = .pausing ∨ s.line.state = .paused
  · rw [stopInto_rested target h]
    exact (runningOut_ranOut target s).resume
  · rw [not_or] at h
    rw [stopInto_moving target h.1 h.2]
    exact runningOut_ranOut target s

theorem runningOut_stations (target : RunoutTarget) (s : State) : (s.runningOut target).track.stations = s.track.stations := by
  rw [runningOut_eq, abandonProving_eq]
  obtain ⟨c, p, k, r, e⟩ := closeOpenBundle_shape (State.inRunout
    { s with mon.proving := if s.mon.proving = .active then .abandoned else s.mon.proving } target .host)
  rw [e]
  rfl

/-- R166: a line that was at rest refills its EMPTY stations, and no other. -/
theorem stopInto_station (target : RunoutTarget) (n : StationId) (s : State) : ((stopInto target s).station n).state =
    if (s.line.state = .pausing ∨ s.line.state = .paused) ∧ (s.station n).state = .empty then .refilling
    else (s.station n).state := by
  have same : (s.runningOut target).station n = s.station n := by
    rw [State.station, State.station, runningOut_stations]
  by_cases h : s.line.state = .pausing ∨ s.line.state = .paused
  · rw [stopInto_rested target h, resumeRefills, resumeRefill_refills.all, same]
    simp only [h, true_and, decide_eq_true_eq]
    split <;> rfl
  · rw [if_neg (fun e => h e.1)]
    rw [not_or] at h
    rw [stopInto_moving target h.1 h.2, same]

/-- R166: the line states from which StopLine and EndJob run the line out. -/
def State.stoppable (s : State) : Prop :=
  s.line.state = .purge ∨ s.line.state = .proving ∨ s.line.state = .running ∨
    ((s.line.state = .pausing ∨ s.line.state = .paused) ∧ s.line.key = .run)

/-- R188: the reply of a result code alone. -/
theorem holdReply_code (tag type : Byte) (r : Result) (x : State) : holdReply tag type (Answer.code r x).reply
    (Answer.code r x).restart (Answer.code r x).state = holdReply tag type ⟨r, []⟩ false x := rfl

/-- A request without a body, answered by its block. -/
theorem exec_stopLine {tag : Byte} (held : s.link.held = none) : exec (.stopLine tag []) s = .next (holdReply tag 0x25
    (stopLineBody [] s).reply (stopLineBody [] s).restart (stopLineBody [] s).state) :=
  congrArg Host.Outcome.next (takeFrame_answer stopLineBody held rfl)

theorem exec_endJob {tag : Byte} (held : s.link.held = none) : exec (.endJob tag []) s = .next (holdReply tag 0x26
    (endJobBody [] s).reply (endJobBody [] s).restart (endJobBody [] s).state) :=
  congrArg Host.Outcome.next (takeFrame_answer endJobBody held rfl)

theorem stopLineBody_runsOut (h : s.stoppable) : stopLineBody [] s = .code .ok (react (stopInto .jobIdle s)) := by
  rcases h with h | h | h | ⟨h | h, key⟩
  iterate 3 rw [stopLineBody, h]
  all_goals rw [stopLineBody, h, key]

theorem endJobBody_runsOut (h : s.stoppable) : endJobBody [] s = .code .ok (react (stopInto .sweep s)) := by
  rcases h with h | h | h | ⟨h | h, key⟩
  iterate 3 rw [endJobBody, h]
  all_goals rw [endJobBody, h, key]

/-- R166, R167: the line states in which both requests are refused. -/
def State.refusesStop (s : State) : Prop :=
  s.line.state ∈ [LineState.standby, .ready, .sweep, .faultStop, .interlock] ∨
    ((s.line.state = .pausing ∨ s.line.state = .paused) ∧ s.line.key = .setup)

theorem stopLineBody_refused (h : s.refusesStop ∨ s.line.state = .jobIdle) : stopLineBody [] s = .code .wrongState s := by
  unfold State.refusesStop at h
  simp only [List.mem_cons, List.not_mem_nil, or_false] at h
  unfold stopLineBody
  rcases h with ((h | h | h | h | h) | ⟨h | h, key⟩) | h
  case inl.inr.inl => rw [h, key]
  case inl.inr.inr => rw [h, key]
  all_goals rw [h]

theorem endJobBody_refused (h : s.refusesStop) : endJobBody [] s = .code .wrongState s := by
  unfold State.refusesStop at h
  simp only [List.mem_cons, List.not_mem_nil, or_false] at h
  unfold endJobBody
  rcases h with (h | h | h | h | h) | ⟨h | h, key⟩
  case inr.inl => rw [h, key]
  case inr.inr => rw [h, key]
  all_goals rw [h]

/-- Settles O55, by the entry to RUNOUT written out as one state. -/
theorem stopLineAndEndJobRunOut : Obligations.StopLineAndEndJobRunOut := by
  intro tag s held
  refine ⟨fun h c type target hc => ?_, fun runout => ⟨?_, ?_⟩, fun h => ⟨?_, ?_⟩, fun h => ?_⟩
  · have answer : exec c s = .next (holdReply tag type ⟨.ok, []⟩ false (react (stopInto target s))) := by
      simp only [List.mem_cons, Prod.mk.injEq, List.not_mem_nil, or_false] at hc
      rcases hc with ⟨rfl, rfl, rfl⟩ | ⟨rfl, rfl, rfl⟩
      · rw [exec_stopLine held, stopLineBody_runsOut h, holdReply_code]
      · rw [exec_endJob held, endJobBody_runsOut h, holdReply_code]
    have ran := stopInto_ranOut target s
    exact ⟨stopInto target s, answer, ran.line, ran.mon, ran.fixed, ran.queue, ran.window, ran.diverts, ran.carriers, ran.accumulator,
      ran.left, ran.noBundle, fun n => stopInto_station target n s⟩
  · have body : stopLineBody [] s = .code .ok s := by rw [stopLineBody, runout]
    rw [exec_stopLine held, body, holdReply_code]; rfl
  · have body : endJobBody [] s = .code .ok (react { s with line.runoutTarget := .sweep }) := by rw [endJobBody, runout]
    rw [exec_endJob held, body, holdReply_code]
  · rw [exec_stopLine held, stopLineBody_refused (.inl h), holdReply_code]; rfl
  · rw [exec_endJob held, endJobBody_refused h, holdReply_code]; rfl
  · rw [exec_stopLine held, stopLineBody_refused (.inr h), holdReply_code]; rfl

end Sys2Proof.Machine
end

section
namespace Sys2Proof.Machine

variable {s : State}

/-! ### The numbers of an OpenJob (R158) -/

/-- R158: an OpenJob refused for a field. -/
theorem parseJob_refused {x : RawJob} {c : LineConfig} (fits : x.Fits) (h : x.Refused) : parseJob c x.bytes = none := by
  obtain ⟨code, first, mode, mask, skip⟩ := fits
  simp (disch := omega) only [parseJob, RawJob.bytes, List.append_assoc, fieldAt_head, fieldAt_skip, fieldAt_last, Nat.reduceSub]
  exact if_neg (by omega)

/-- R158: an OpenJob whose fields are in their ranges. -/
theorem parseJob_taken {x : RawJob} {c : LineConfig} (fits : x.Fits) (h : ¬ x.Refused) : parseJob c x.bytes = some (x.job c) := by
  obtain ⟨code, first, mode, mask, skip⟩ := fits
  simp (disch := omega) only [parseJob, RawJob.bytes, List.append_assoc, fieldAt_head, fieldAt_skip, fieldAt_last, Nat.reduceSub]
  exact if_pos (by omega)

/-! ### The checks (R158) -/

theorem openCheck_state (h : s.line.state ≠ .ready ∨ s.line.interlock = .opened) (body : List Byte) :
    s.openCheck body = .error .wrongState := by
  unfold State.openCheck
  by_cases r : s.line.state = .ready
  · rw [if_neg (not_not.2 r), if_pos (h.resolve_left (not_not.2 r))]
  · rw [if_pos r]

section Ready

variable (state : s.line.state = .ready) (guard : s.line.interlock = .closed) {body : List Byte}
include state guard

theorem openCheck_badField (fields : parseJob s.cfg body = none) : s.openCheck body = .error .badValue := by
  rw [State.openCheck, if_neg (not_not.2 state), if_neg (by rw [guard]; decide), fields]

theorem openCheck_noSteps {j : Job} (fields : parseJob s.cfg body = some j) (steps : lastBound s.postal.steps = none) :
    s.openCheck body = .error .wrongState := by
  rw [State.openCheck, if_neg (not_not.2 state), if_neg (by rw [guard]; decide), fields, steps]

theorem openCheck_steps {j : Job} {bound : Nat} (fields : parseJob s.cfg body = some j)
    (steps : lastBound s.postal.steps = some bound) :
    s.openCheck body = if s.cfg.trayWeight ≤ bound then .error .badValue else .ok j := by
  rw [State.openCheck, if_neg (not_not.2 state), if_neg (by rw [guard]; decide), fields, steps]

/-- R158: every check passed. -/
theorem openCheck_ok {j : Job} {bound : Nat} (fields : parseJob s.cfg body = some j)
    (steps : lastBound s.postal.steps = some bound) (room : bound < s.cfg.trayWeight) : s.openCheck body = .ok j :=
  (openCheck_steps state guard fields steps).trans (if_neg (by omega))

end Ready

theorem exec_openJob {tag : Byte} {body : List Byte} (held : s.link.held = none) (length : bodyLengthOk 0x20 body.length = true) :
    exec (.openJob tag body) s = .next (holdReply tag 0x20 (openJobBody body s).reply (openJobBody body s).restart
      (openJobBody body s).state) :=
  congrArg Host.Outcome.next (takeFrame_answer openJobBody held length)

/-- R158: a refused OpenJob changes nothing but its reply. -/
theorem exec_openJob_refused {tag : Byte} {body : List Byte} {code : Result} (held : s.link.held = none)
    (length : bodyLengthOk 0x20 body.length = true) (check : s.openCheck body = .error code) :
    exec (.openJob tag body) s = .next (s.answered tag 0x20 code [0xFF, 0xFF, 0x00, 0x00, 0x00]) := by
  rw [exec_openJob held length, openJobBody, check]
  rfl

/-- R158: an OpenJob that passes its checks. -/
theorem exec_openJob_opens {tag : Byte} {body : List Byte} {j : Job} (held : s.link.held = none)
    (length : bodyLengthOk 0x20 body.length = true) (check : s.openCheck body = .ok j) :
    exec (.openJob tag body) s = .next (holdReply tag 0x20 ⟨.ok, toBytes 2 j.code ++ toBytes 3 j.first⟩ false
      (react (openTheJob j s))) := by
  rw [exec_openJob held length, openJobBody, check]
  unfold Answer.mk'
  rfl

/-! ### The job opened (R158, R47, R104, R111) -/

/-- R158: the state with the job open, the jam timers and the feed hold as they were. -/
theorem openTheJob_shape (j : Job) (s : State) : ∃ st k, jobRefills (openBlocks j s) =
    { openBlocks j s with track.stations := st, link := k } := jobRefill_refills.shape allStations (openBlocks j s)

/-- The entry of a line state leaves the stations. -/
theorem enterState_station (x : LineState) (r : Reason) (n : StationId) (s : State) :
    (enterState x r s).station n = s.station n := rfl

/-- R104: the stations of the job opened. -/
theorem openTheJob_station (j : Job) (n : StationId) (s : State) : (openTheJob j s).station n =
    if ((s.station n).state = .off ∧ s.plant.stations[n].enabled = true) ∨ (s.station n).state = .empty
    then (s.station n).refilled else s.station n := by
  have station : (openBlocks j s).station n = s.station n := rfl
  have plant : (openBlocks j s).plant = s.plant := rfl
  rw [openTheJob, enterState_station, jobRefills, jobRefill_refills.all, station, plant]
  simp only [decide_eq_true_eq]

/-- R158: the end of an OpenJob that passes its checks. -/
theorem react_openTheJob (j : Job) (s : State) : react (openTheJob j s) = refresh (watchZones (openTheJob j s)) := by
  refine react_atRest ?_
  rw [openTheJob, enterState_still rfl]
  rfl

/-- R111: the pocket at OpenJob. -/
theorem pocket_atOpen (p : Pocket) : p.atOpen = if p = .empty then .refilling else p := by cases p <;> rfl

/-- R5: the feed hold shown while the line is still and nothing is fed. -/
theorem refresh_feedHold_still (h : s.motion = false) (f : s.feeding = false) : (refresh s).coll.feedHold = .line := by
  have hold : (refresh s).coll.feedHold = if s.feeding then .none else s.feedBlock := rfl
  rw [hold, f, feedBlock_still h]
  rfl

/-- R47, R111, R158: every block but the stations, once the job is open. -/
structure Opened (s : State) (j : Job) (t : State) : Prop where
  reg : t.reg = { Register.reset with base := j.first, filter := s.reg.filter, job := some j }
  coll : t.coll = { Collation.reset with state := .setStart }
  mon : t.mon = .reset
  sets : t.sets = s.sets
  pocket : t.track.head.pocket = (if s.track.head.pocket = .empty then .refilling else s.track.head.pocket)
  presort : t.presort = { s.presort with nextTray := some 1 }
  postage : t.postage = { Postage.reset with manifest := s.postage.manifest, retained := s.postage.retained }
  line : t.line = { s.line with
    state := .jobIdle, returnState := none, origin := none, stopReason := none, runoutTarget := .none, purgeHeldDone := false }
  plant : t.plant = s.plant
  postal : t.postal = s.postal
  time : t.time = s.time

theorem openTheJob_opened (j : Job) (s : State) : Opened s j (openTheJob j s) := by
  obtain ⟨st, k, e⟩ := openTheJob_shape j s
  rw [openTheJob, e, enterState_still rfl]
  constructor
  case pocket => exact pocket_atOpen _
  all_goals rfl

/-- The jam timers and the feed hold brought up to date leave the job as it opens. -/
theorem Opened.refresh {j : Job} {t : State} (h : Opened s j t) : Opened s j (refresh (watchZones t)) := by
  have quiet : (watchZones t).feeding = false := by
    change t.feeding = false
    rw [State.feeding, h.coll]
    rfl
  have still : (watchZones t).motion = false := by
    change t.motion = false
    rw [State.motion, h.line]
    rfl
  constructor
  case coll =>
    have coll : (Machine.refresh (watchZones t)).coll = { t.coll with feedHold := (Machine.refresh (watchZones t)).coll.feedHold } := rfl
    rw [coll, refresh_feedHold_still still quiet, h.coll]
    rfl
  case reg => exact h.reg
  case mon => exact h.mon
  case sets => exact h.sets
  case pocket => exact h.pocket
  case presort => exact h.presort
  case postage => exact h.postage
  case line => exact h.line
  case plant => exact h.plant
  case postal => exact h.postal
  case time => exact h.time

theorem react_openTheJob_opened (j : Job) (s : State) : Opened s j (react (openTheJob j s)) := by
  rw [react_openTheJob]
  exact (openTheJob_opened j s).refresh

theorem refresh_watchZones_station (n : StationId) (s : State) : (refresh (watchZones s)).station n = s.station n := rfl

theorem react_openTheJob_station (j : Job) (n : StationId) (s : State) : (react (openTheJob j s)).station n =
    if ((s.station n).state = .off ∧ s.plant.stations[n].enabled = true) ∨ (s.station n).state = .empty
    then (s.station n).refilled else s.station n := by
  rw [← openTheJob_station j n s, react_openTheJob, refresh_watchZones_station]

/-- Settles O53, by the ordered checks and the state of the opened job. -/
theorem openJobOpens : Obligations.OpenJobOpens := by
  intro tag body s held length
  refine ⟨fun j bound state guard fields steps room => ?_, fun code h => ?_, fun x fits bytes state guard => ⟨fun bad => ?_, fun ok => ?_⟩⟩
  · have opened := react_openTheJob_opened j s
    have station := fun n => react_openTheJob_station j n s
    have answer := exec_openJob_opens (tag := tag) held length (openCheck_ok state guard fields steps room)
    generalize react (openTheJob j s) = t at opened station answer
    refine ⟨_, answer, rfl, opened.reg, opened.coll, opened.mon,
      opened.sets, fun n => ?_, fun n h => ?_, opened.pocket, opened.presort, opened.postage, opened.line, opened.plant, opened.postal,
      opened.time⟩
    · refine (congrArg Station.state (station n)).trans ?_
      split <;> rfl
    · refine (congrArg Station.seq (station n)).trans ?_
      rw [if_pos h]
      rfl
  · refine exec_openJob_refused held length ?_
    by_cases r : s.line.state ≠ .ready ∨ s.line.interlock = .opened
    · rw [if_pos r] at h
      rw [h, openCheck_state r]
    · rw [if_neg r] at h
      simp only [not_or, not_not] at r
      obtain ⟨state, guard⟩ := r
      have guard : s.line.interlock = .closed := by cases e : s.line.interlock <;> simp_all
      cases fields : parseJob s.cfg body with
      | none =>
        rw [if_pos fields] at h
        rw [h, openCheck_badField state guard fields]
      | some j =>
        rw [if_neg (by rw [fields]; exact Option.some_ne_none j)] at h
        cases steps : s.postal.steps.bind List.getLast? with
        | none =>
          rw [steps] at h
          rw [show code = .wrongState from h, openCheck_noSteps state guard fields steps]
        | some bound =>
          rw [steps] at h
          obtain ⟨heavy, rfl⟩ : s.cfg.trayWeight ≤ bound ∧ code = .badValue := h
          rw [openCheck_steps state guard fields steps, if_pos heavy]
  · subst bytes
    exact exec_openJob_refused held length (openCheck_badField state guard (parseJob_refused fits bad))
  · subst bytes
    intro bound steps room
    have opened := react_openTheJob_opened (x.job s.cfg) s
    have answer := exec_openJob_opens (tag := tag) held length (openCheck_ok state guard (parseJob_taken fits ok) steps room)
    generalize react (openTheJob (x.job s.cfg) s) = t at opened answer
    exact ⟨_, answer, congrArg Register.job opened.reg, congrArg Register.base opened.reg⟩

end Sys2Proof.Machine
end

section
namespace Sys2Proof.Machine

variable {s : State}

/-! ### Sets through the blocks' tests -/

/-- A set keeps its outline and its faults through what the blocks start. -/
theorem Settles.holdsSet {t : State} (h : Settles s t) {i : Slot} {r : SetRecord} (holds : s.HoldsSet i r) : t.HoldsSet i r := by
  obtain ⟨q, at_s, outline, faults⟩ := holds
  have follows := h.follows i
  rw [at_s] at follows
  cases at_t : t.setAt i with
  | none => rw [at_t] at follows; exact follows.elim
  | some x =>
    rw [at_t] at follows
    obtain ⟨outline', faults'⟩ := follows
    refine ⟨x, at_t, outline'.trans outline, ?_⟩
    calc r.faults &&& x.faults = (r.faults &&& q.faults) &&& x.faults := by rw [faults]
      _ = r.faults &&& (q.faults &&& x.faults) := BitVec.and_assoc _ _ _
      _ = r.faults := by rw [faults', faults]

/-- A slot that holds a set as it is given. -/
theorem holdsSet_of_setAt {i : Slot} {r : SetRecord} (h : s.setAt i = some r) : s.HoldsSet i r :=
  ⟨r, h, rfl, BitVec.and_self⟩

section Views

variable {t u : State} (h : t.flow = u.flow)
include h

theorem coll_state_of_flow : t.coll.state = u.coll.state := congrArg (fun f => f.collation.state) h
theorem coll_current_of_flow : t.coll.current = u.coll.current := congrArg (fun f => f.collation.current) h
theorem coll_expectedIndex_of_flow : t.coll.expectedIndex = u.coll.expectedIndex := congrArg (fun f => f.collation.expectedIndex) h
theorem coll_expectedWrap_of_flow : t.coll.expectedWrap = u.coll.expectedWrap := congrArg (fun f => f.collation.expectedWrap) h
theorem coll_lastMark_of_flow : t.coll.lastMark = u.coll.lastMark := congrArg (fun f => f.collation.lastMark) h
theorem coll_huntCount_of_flow : t.coll.huntCount = u.coll.huntCount := congrArg (fun f => f.collation.huntCount) h
theorem reg_queue_of_flow : t.reg.queue = u.reg.queue := congrArg (fun f => f.register.queue) h
theorem reg_window_of_flow : t.reg.window = u.reg.window := congrArg (fun f => f.register.window) h
theorem reg_counters_of_flow : t.reg.counters = u.reg.counters := congrArg (fun f => f.register.counters) h

end Views

/-! ### A set closed short (R15) -/

/-- R15: the record of a set that is closed short. -/
def State.shortRecord (s : State) (r : SetRecord) : SetRecord :=
  s.completedRecord { r with faults := r.faults ||| faultMask .shortSet }

/-- R15, R20: a set closed short completes at once. -/
theorem closeShort_eq {i : Slot} {r : SetRecord} (h : s.setAt i = some r) : closeShort i s = { s with
    coll := { s.coll with state := .setStart, current := none }
    reg := { s.reg with
      pool := s.reg.pool.set i.val (some (s.shortRecord r)) i.isLt
      counters := s.reg.counters.completed (s.shortRecord r).faults }
    sets.release := .pending } := by
  have marked : (addFault .shortSet i { s with coll := { s.coll with state := .setStart, current := none } }).setAt i =
      some { r with faults := r.faults ||| faultMask .shortSet } := by
    rw [addFault, setAt_modSet_self]
    exact congrArg (Option.map _) h
  rw [closeShort, completeSet_some marked]
  have pool : ∀ x : Option SetRecord,
      (addFault .shortSet i { s with coll := { s.coll with state := .setStart, current := none } }).reg.pool.set i.val x i.isLt =
        s.reg.pool.set i.val x i.isLt := fun x => Vector.set_set ..
  rw [pool]
  rfl

theorem closeShort_setAt {i : Slot} {r : SetRecord} (h : s.setAt i = some r) :
    (closeShort i s).setAt i = some (s.shortRecord r) := by
  rw [closeShort_eq h]
  simp [State.setAt]

/-- What the close of a set writes. -/
theorem closeShort_shape (i : Slot) (s : State) :
    ∃ c p k r, closeShort i s = { s with coll := c, reg.pool := p, reg.counters := k, sets.release := r } := by
  obtain ⟨p, k, r, e⟩ := completeSet_shape i (addFault .shortSet i { s with coll.state := .setStart, coll.current := none })
  exact ⟨_, p, k, r, e⟩

/-! ### The feed timeout (R7, R162) -/

/-- R7: the feed ended without a sheet. -/
def State.feedEnded (s : State) (tag : Option Byte) : State :=
  { s with coll.transit := .none, coll.closedTag := if tag = none then s.coll.closedTag else tag }

theorem feedEnded_eq (tag : Option Byte) (s : State) : ({ s with
    coll.transit := .none, coll.closedTag := if tag.isSome then tag else s.coll.closedTag } : State) = s.feedEnded tag := by
  cases tag <;> rfl

/-- R7, R162: the feed timeout in PROVING and RUNNING pauses the line. -/
theorem feedExpired_pauses {tag : Option Byte} (h : s.line.state = .proving ∨ s.line.state = .running) :
    feedExpired tag s = pauseLine .feederEmpty (s.feedEnded tag) := by
  rcases h with h | h <;> rw [feedExpired, h, feedEnded_eq]

/-- R7: in PAUSING the feed timeout ends the feed. -/
theorem feedExpired_pausing {tag : Option Byte} (h : s.line.state = .pausing) : feedExpired tag s = s.feedEnded tag := by
  rw [feedExpired, h, feedEnded_eq]

/-- R7, R15: in RUNOUT the feed timeout closes the current set short. -/
theorem feedExpired_runout {tag : Option Byte} {i : Slot} (h : s.line.state = .runout) (state : s.coll.state = .inSet)
    (current : s.coll.current = some i) : feedExpired tag s = closeShort i (s.feedEnded tag) := by
  rw [feedExpired, h, state, current, feedEnded_eq]

/-- The feed timeout touches no more than a pause or the close of a set does. -/
theorem feedExpired_keeps (tag : Option Byte) (s : State) :
    (feedExpired tag s).fixed = s.fixed ∧ (s.NoSweep → (feedExpired tag s).NoSweep) := by
  have short : ∀ i, (closeShort i (s.feedEnded tag)).fixed = s.fixed ∧ (s.NoSweep → (closeShort i (s.feedEnded tag)).NoSweep) := by
    intro i
    obtain ⟨c, p, k, r, e⟩ := closeShort_shape i (s.feedEnded tag)
    rw [e]
    exact ⟨rfl, id⟩
  have pause := pauseLine_settles (s.feedEnded tag) .feederEmpty
  rw [feedExpired, feedEnded_eq]
  split
  · exact ⟨pause.fixed, pause.noSweep⟩
  · exact ⟨pause.fixed, pause.noSweep⟩
  · split
    · exact short _
    · exact ⟨rfl, id⟩
  · exact ⟨rfl, id⟩

/-- FEED_TIMEOUT (R7). -/
theorem exec_feedTimeout {tag : Option Byte} {reads : List Mark} {timer : Timer} (h : s.coll.transit = .feeding tag reads timer) :
    exec .feedTimeout s = .next (react (feedExpired tag s)) := by
  change execFeedTimeout s = _
  rw [execFeedTimeout, h]

theorem exec_feedTimeout_quiet (h : s.feeding = false) : exec .feedTimeout s = .next (react s) := by
  change execFeedTimeout s = _
  unfold State.feeding at h
  unfold execFeedTimeout
  split
  · rename_i e; simp [e] at h
  · rfl

/-- R164: what is not at rest once the feed has ended. -/
theorem feedEnded_notAtRest (tag : Option Byte) : (s.feedEnded tag).notAtRest = { s.notAtRest with feed := false } := rfl

/-- R164: with the feed ended only the Set Handler and the track can hold the pause. -/
theorem feedEnded_rests (tag : Option Byte) : (s.feedEnded tag).notAtRest = noSections ↔
    ¬ (s.notAtRest.set = true ∨ s.notAtRest.track = true) := by
  rw [feedEnded_notAtRest]
  simp only [noSections, Sections.mk.injEq, true_and, not_or, Bool.not_eq_true]

/-- In PAUSING the blocks leave the sheet in transit as it is. -/
theorem react_pausing_coll (h : s.line.state = .pausing) :
    (react s).coll.transit = s.coll.transit ∧ (react s).coll.closedTag = s.coll.closedTag := by
  by_cases r : s.notAtRest = noSections
  · rw [react_pausing_rested h r]; exact ⟨rfl, rfl⟩
  · rw [react_pausing_pending h r]; exact ⟨rfl, rfl⟩

/-- Settles O31, by the line state in which the feed ends. -/
theorem feedTimeoutEndsFeed : Obligations.FeedTimeoutEndsFeed := by
  intro s quiet
  refine ⟨fun h => ⟨react s, exec_feedTimeout_quiet h, react_fixed s, react_flow s quiet⟩, fun tag reads timer feeding => ?_⟩
  obtain ⟨fixed, noSweep⟩ := feedExpired_keeps tag s
  refine ⟨react (feedExpired tag s), exec_feedTimeout feeding, (react_fixed _).trans fixed, fun state => ?_, fun state => ?_,
    fun i r state inSet current holds => ?_⟩
  · have flow := react_flow _ (noSweep quiet)
    rw [feedExpired_pauses state] at flow ⊢
    have line := react_pauseLine_line (s := s.feedEnded tag) (reason := .feederEmpty) (.inr state)
    have paused := pauseLine_eq (s := s.feedEnded tag) (reason := .feederEmpty) (.inr state)
    have coll := react_pausing_coll (s := pauseLine .feederEmpty (s.feedEnded tag)) (by rw [paused]; rfl)
    have ended : (pauseLine .feederEmpty (s.feedEnded tag)).coll = (s.feedEnded tag).coll := by rw [paused]
    rw [ended] at coll
    refine ⟨flow.trans (pauseLine_settles _ _).flow, coll.1, coll.2, ?_, ?_, ?_⟩
    · rw [line]; rfl
    · rw [line]
    · rw [line]
      simp only [feedEnded_rests, ite_not]
  · have flow := react_flow _ (noSweep quiet)
    rw [feedExpired_pausing state] at flow ⊢
    have line := react_pausing_line (s := s.feedEnded tag) state
    have coll := react_pausing_coll (s := s.feedEnded tag) state
    exact ⟨flow, coll.1, coll.2, by rw [line]; rfl, by rw [line]; rfl⟩
  · have settles := react_settles _ (noSweep quiet)
    have flow := settles.flow
    rw [feedExpired_runout state inSet current] at settles flow ⊢
    have holds' : (s.feedEnded tag).setAt i = some r := holds
    have closed := closeShort_eq holds'
    refine ⟨(coll_state_of_flow flow).trans ?_, (coll_current_of_flow flow).trans ?_,
      settles.holdsSet (holdsSet_of_setAt (closeShort_setAt holds')), fun calm => ?_⟩
    · rw [closed]
    · rw [closed]
    · have quiet' := noSweep quiet
      rw [feedExpired_runout state inSet current] at quiet'
      refine (react_starts (s := closeShort i (s.feedEnded tag)) ?_ quiet').pending ?_
      · rw [closed]; exact calm
      · rw [closed]

end Sys2Proof.Machine
end

section
namespace Sys2Proof.Machine

variable {s t u : State}

/-! ### What the blocks' tests queue -/

/-- Whether a report is a SHEET_GAP. -/
def Report.isGap : Report → Bool
  | .sheetGap .. => true
  | _ => false

theorem pushAll_append (l : Link) (now : LineTime) (a b : List Report) :
    l.pushAll now (a ++ b) = (l.pushAll now a).pushAll now b := List.foldl_append

/-- Reports are queued, none of them a SHEET_GAP, and nothing else is written to the link. -/
structure QueuesNoGap (s t : State) : Prop where
  time : t.time = s.time
  link : ∃ rs, (∀ r ∈ rs, r.isGap = false) ∧ t.link = s.link.pushAll s.time rs

namespace QueuesNoGap

theorem same (time : t.time = s.time := by rfl) (link : t.link = s.link := by rfl) : QueuesNoGap s t :=
  ⟨time, [], by simp, link⟩

theorem one (r : Report) (quiet : r.isGap = false := by rfl) (time : t.time = s.time := by rfl)
    (link : t.link = s.link.push s.time r := by rfl) : QueuesNoGap s t := ⟨time, [r], by simpa using quiet, link⟩

theorem trans (h : QueuesNoGap s t) (g : QueuesNoGap t u) : QueuesNoGap s u := by
  obtain ⟨a, quiet, link⟩ := h.link
  obtain ⟨b, quiet', link'⟩ := g.link
  refine ⟨g.time.trans h.time, a ++ b, fun r hr => ?_, by rw [pushAll_append, ← link, link', h.time]⟩
  rcases List.mem_append.1 hr with hr | hr
  · exact quiet r hr
  · exact quiet' r hr

end QueuesNoGap

/-! ### What the blocks' tests leave, calm or not -/

/-- The blocks, with their stops and pauses, decide no sheet and take none in, leave a set that awaits its release there, and open the
gate for a held sheet only to an empty accumulator. -/
structure Carries (s t : State) : Prop extends QueuesNoGap s t where
  decided : ∀ i c, t.coll.transit = .decided i c ↔ s.coll.transit = .decided i c
  release : s.sets.release ≠ .none → t.sets.release ≠ .none
  gate : s.sets.accumulator ≠ none ∨ (∀ i, s.sets.gate ≠ .closed (some i)) → t.sets.gate = s.sets.gate
  accumulator : t.sets.accumulator = s.sets.accumulator
  closedTag : (∃ i c, s.coll.transit = .decided i c) → t.coll.closedTag = s.coll.closedTag

namespace Carries

theorem of (queues : QueuesNoGap s t) (coll : t.coll.transit = s.coll.transit := by rfl) (sets : t.sets = s.sets := by rfl)
    (closed : t.coll.closedTag = s.coll.closedTag := by rfl) : Carries s t where
  toQueuesNoGap := queues
  decided i c := by rw [coll]
  release h := by rw [sets]; exact h
  gate _ := by rw [sets]
  accumulator := by rw [sets]
  closedTag _ := closed

theorem refl (s : State) : Carries s s := .of .same

theorem trans (h : Carries s t) (g : Carries t u) : Carries s u where
  toQueuesNoGap := h.toQueuesNoGap.trans g.toQueuesNoGap
  decided i c := (g.decided i c).trans (h.decided i c)
  release q := g.release (h.release q)
  gate q := (g.gate (by rw [h.accumulator, h.gate q]; exact q)).trans (h.gate q)
  accumulator := g.accumulator.trans h.accumulator
  closedTag := fun ⟨i, c, q⟩ => (g.closedTag ⟨i, c, (h.decided i c).2 q⟩).trans (h.closedTag ⟨i, c, q⟩)

theorem foldl {α : Type} {f : State → α → State} (h : ∀ s a, Carries s (f s a)) : ∀ (l : List α) (s : State), Carries s (l.foldl f s)
  | [], s => refl s
  | a :: l, s => (h s a).trans (foldl h l (f s a))

end Carries

/-! ### Stops and pauses -/

theorem enterState_carries (n : LineState) (r : Reason) (s : State) : Carries s (enterState n r s) :=
  .of (.one (.stateChange n s.line.state r))

theorem pauseLine_carries (r : Reason) (s : State) : Carries s (pauseLine r s) := by
  by_cases h : s.line.state = .purge ∨ s.line.state = .proving ∨ s.line.state = .running
  · rw [pauseLine_eq h]
    exact .of (.one (.stateChange .pausing s.line.state r))
  · simp only [not_or] at h
    rw [pauseLine_other h.1 h.2.1 h.2.2]
    exact .refl s

/-- A stop cancels a feed, and leaves a decided sheet in transit. -/
theorem cutColl_decided (s : State) (i : Slot) (c : Bool) : s.cutColl.transit = .decided i c ↔ s.coll.transit = .decided i c := by
  unfold State.cutColl
  cases e : s.coll.transit <;> simp [e]

theorem stopped_carries (first : List Report) (l : LineControl) (quiet : ∀ r ∈ first, r.isGap = false) :
    Carries s (s.stopped true first l) where
  time := rfl
  link := by
    refine ⟨first ++ s.offReports, fun r hr => ?_, (pushAll_append ..).symm⟩
    rcases List.mem_append.1 hr with hr | hr
    · exact quiet r hr
    · obtain ⟨n, -, rfl⟩ := List.mem_map.1 hr
      rfl
  decided := cutColl_decided s
  release h := by
    have release : (s.stopped true first l).sets.release = if s.releasing then .pending else s.sets.release := rfl
    rw [release]
    split
    · exact Release.noConfusion
    · exact h
  gate _ := rfl
  accumulator := rfl
  closedTag := fun ⟨i, c, q⟩ => by
    have closed : (s.stopped true first l).coll.closedTag = s.cutColl.closedTag := rfl
    rw [closed, State.cutColl, q]

theorem faultStop_carries (r : Reason) (s : State) : Carries s (faultStop r s) := by
  by_cases h : s.motion = true ∨ s.line.state = .pausing
  · rw [faultStop_eq h]
    exact stopped_carries _ _ (by simp [Report.isGap])
  · simp only [not_or, Bool.not_eq_true] at h
    rw [faultStop_rest h.1 h.2]
    exact .refl s

theorem takeRequest_carries (s : State) (r : LineRequest) : Carries s (takeRequest s r) := by
  cases r with
  | pause r => exact pauseLine_carries r s
  | stop r => exact faultStop_carries r s

/-! ### Each block's test -/

theorem watchZones_carries (s : State) : Carries s (watchZones s) := .of .same

theorem refresh_carries (s : State) : Carries s (refresh s) := .of .same

theorem purgeAct_carries (s : State) : Carries s (purgeAct s) := by
  unfold purgeAct purgeDone
  split
  · split
    · exact (Carries.of .same).trans (enterState_carries .running .purgeDone _)
    · exact (Carries.of .same).trans (enterState_carries .proving .purgeDone _)
  · exact .refl s

theorem gateAct_carries (s : State) : Carries s (gateAct s) := by
  unfold gateAct
  split
  · rename_i i held
    split
    · rename_i ready
      have empty : s.sets.accumulator = none := by
        simp only [State.gateReady, Bool.and_eq_true, Option.isNone_iff_eq_none] at ready
        exact ready.1
      exact
        { time := rfl, link := ⟨[], by simp, rfl⟩, decided := fun _ _ => Iff.rfl, release := id, accumulator := rfl, closedTag := fun _ => rfl
          gate := fun h => by
            rcases h with h | h
            · exact absurd empty h
            · exact absurd held (h i) }
    · exact .refl s
  · exact .refl s

/-- A change of the release to one that stands. -/
theorem release_carries {r : Release} (h : r ≠ .none) (x : SetHandler)
    (e : x = { s.sets with release := r, earlyArmed := x.earlyArmed }) : Carries s { s with sets := x } where
  time := rfl
  link := ⟨[], by simp, rfl⟩
  decided _ _ := Iff.rfl
  release _ := by rw [e]; exact h
  gate _ := by rw [e]
  accumulator := by rw [e]
  closedTag _ := rfl

theorem reportEarlyFull_carries (s : State) : Carries s (reportEarlyFull s) := by
  unfold reportEarlyFull
  split
  · exact
      { time := rfl, link := ⟨[_], fun r hr => by rw [List.mem_singleton.1 hr]; rfl, rfl⟩, decided := fun _ _ => Iff.rfl
        release := id, accumulator := rfl, gate := fun _ => rfl, closedTag := fun _ => rfl }
  · exact .refl s

theorem releaseAct_carries (s : State) : Carries s (releaseAct s) := by
  unfold releaseAct
  split
  · split
    · split
      · exact release_carries (r := .early (s.timer s.cfg.releaseTime)) Release.noConfusion _ rfl
      · exact reportEarlyFull_carries s
    · split
      · exact release_carries (r := .forward (s.timer s.cfg.releaseTime)) Release.noConfusion _ rfl
      · exact .refl s
  · exact .refl s

/-- A change of the folder alone. -/
theorem folder_carries (x : Folder) : Carries s { s with sets.folder := x } where
  time := rfl
  link := ⟨[], by simp, rfl⟩
  decided _ _ := Iff.rfl
  release := id
  gate _ := rfl
  accumulator := rfl
  closedTag _ := rfl

theorem folderAct_carries (s : State) : Carries s (folderAct s) := by
  unfold folderAct startMove startFold
  split
  · split
    · exact folder_carries _
    · split
      · exact folder_carries _
      · exact .refl s
  · exact .refl s

theorem addFault?_carries (k : FaultKind) (i : Option Slot) (s : State) : Carries s (addFault? k i s) := by
  cases i with
  | none => exact .refl s
  | some i => exact .of .same

theorem dropAct_carries (n : StationId) (s : State) : Carries s (dropAct n s).1 := by
  unfold dropAct
  split
  · simp only
    split
    · exact .of .same
    · exact .refl s
    · exact .refl s
    · split
      · exact .refl s
      · exact .refl s
      · exact addFault?_carries _ _ s
      · exact .refl s
    · exact addFault?_carries _ _ s
    · exact addFault?_carries _ _ s
  · exact .refl s

theorem refillAct_carries (n : StationId) (s : State) : Carries s (refillAct n s) := by
  unfold refillAct
  simp only
  split
  · split
    · exact .of .same
    · exact .refl s
  · exact .refl s

theorem faultEnvelope_carries (c : TripCause) (p : Option Nat) (s : State) : Carries s (faultEvent .envelope c p s).1 := by
  unfold faultEvent
  split
  · simp only
    split
    · exact .of .same
    · exact .of (.one (.monitorTrip .envelope c (s.mon.envelope.level + s.cfg.envelopeMon.u) s.cfg.envelopeMon .stop
        (stopOutcome s.line.state) p))
  · exact .refl s

theorem insertAct_carries (s : State) : Carries s (insertAct s).1 := by
  unfold insertAct
  split
  · split
    · exact .of .same
    · exact .refl s
    · refine Carries.trans (t := { (s.modSet? (s.carrier 8) fun r =>
        { r with faults := addKind r.faults .envelopeMiss, insertDone := true }) with track.head.pocket := .refilling }) ?_
        (faultEnvelope_carries _ _ _)
      cases s.carrier 8 <;> exact .of .same
  · exact .refl s

theorem envelopeAct_carries (s : State) : Carries s (envelopeAct s) := by
  unfold envelopeAct
  split
  · exact .of .same
  · exact .refl s

theorem scanAct_carries (s : State) : Carries s (scanAct s) := by
  unfold scanAct
  split
  · exact .of .same
  · exact .refl s

theorem weighAct_carries (s : State) : Carries s (weighAct s) := by
  unfold weighAct
  split
  · exact .of .same
  · exact .refl s

theorem closeBin_carries (b : BinId) (c : CloseCause) (s : State) : Carries s (closeBin b c s) := by
  unfold closeBin
  split
  · rename_i y _
    exact Carries.trans (t := listTray b y c s) (.of (.one (.trayClosed y.number b y.group y.count (s.closeEntry b y c).level
      (s.closeEntry b y c).postage c none none)))
      (.of (.one (.binChange (.sort b) .swap (some y.number) (some y.group) (some y.count) none (some c))))
  · exact .refl s

theorem openTray_carries (b : BinId) (g p : Nat) (s : State) : Carries s (openTray b g p s) := by
  unfold openTray
  split
  · exact .refl s
  · exact .of (.one (.binChange (.sort b) .open (some (s.presort.nextTray.getD 1))
      (some (if b = residualBin then residualGroup else g)) none none none))

theorem joinTray_carries (b : BinId) (p w k : Nat) (s : State) : Carries s (joinTray b p w k s) := by
  unfold joinTray
  split
  · rename_i y _
    simp only
    split
    · exact Carries.trans (t := putBin b { s.bin b with state := .open (y.join p w k), onWay := (s.bin b).onWay + 1 } s) (.of .same)
        (closeBin_carries _ _ _)
    · exact .of .same
  · exact .refl s

theorem assignBin_carries (i : Slot) (r : SetRecord) (s : State) : Carries s (assignBin i r s).1 := by
  unfold assignBin
  simp only
  split
  · exact (openTray_carries _ _ _ s).trans (Carries.trans (.of .same) (joinTray_carries _ _ _ _ _))
  · exact .refl s

theorem assignRequest_carries (s : State) : Carries s (assignRequest s) := by
  unfold assignRequest
  cases s.carrier 11 with
  | none => exact .refl s
  | some i =>
    simp only
    cases s.setAt i with
    | none => exact .refl s
    | some r =>
      have assigned := Carries.trans (s := s) (t := { s with track.assignDue := false }) (.of .same)
        (assignBin_carries i r { s with track.assignDue := false })
      simp only
      split
      · rename_i e; rw [e] at assigned; exact assigned
      · rename_i e
        rw [e] at assigned
        split
        · exact assigned
        · exact assigned.trans (.of (.one (.sortBlocked r.piece
            (lookupGroup s.postal.scheme (r.record.bind PieceRecord.key)) residualBin)))

theorem assignAct_carries (s : State) : Carries s (assignAct s) := by
  unfold assignAct
  split
  · exact assignRequest_carries s
  · exact .refl s

theorem foldl_dropActs_carries (l : List StationId) (p : State × List LineRequest) : Carries p.1 (l.foldl dropActs p).1 := by
  induction l generalizing p with
  | nil => exact .refl _
  | cons n l ih => exact (dropAct_carries n p.1).trans (ih (dropActs p n))

theorem headActs_carries (s : State) : Carries s (headActs s) :=
  (insertAct_carries s).trans ((envelopeAct_carries _).trans ((scanAct_carries _).trans
    ((weighAct_carries _).trans (assignAct_carries _))))

theorem positionActs_carries (s : State) : Carries s (positionActs s).1 := by
  rw [positionActs_fst]
  refine Carries.trans ?_ (headActs_carries _)
  refine Carries.trans (Carries.foldl (fun s n => refillAct_carries n s) allStations s) ?_
  generalize allStations.foldl (fun s n => refillAct n s) s = t
  exact foldl_dropActs_carries allStations (t, [])

theorem positionsAct_carries (s : State) : Carries s (positionsAct s) :=
  (positionActs_carries s).trans (Carries.foldl takeRequest_carries (positionActs s).2 (positionActs s).1)

theorem indexAct_carries (s : State) : Carries s (indexAct s) := by
  have full : Carries s (reportLateFull s) := by
    unfold reportLateFull
    split
    · exact .of (.one (.binChange .late .full none none (some s.track.lateCount) (some s.cfg.lateCapacity) none))
    · exact .refl s
  refine full.trans ?_
  unfold indexAct
  generalize reportLateFull s = t
  unfold startIndex
  split
  · split
    · exact .of .same
    · unfold reportExitBlocked
      split
      · exact .of (.one (.exitBlocked (t.carrier 11) t.track.transport.isSome))
      · exact .refl t
  · exact .refl t

theorem feedAct_carries (s : State) : Carries s (feedAct s) := by
  unfold feedAct
  split
  · rename_i h
    have none := feedBlock_none h
    exact
      { time := rfl, link := ⟨[], by simp, rfl⟩, decided := fun i c => by simp [none], release := id, gate := fun _ => rfl
        accumulator := rfl, closedTag := fun _ => rfl }
  · split
    · exact .of (.one (.queueStarved s.reg.base s.setsInFlight))
    · exact .refl s
  · exact .refl s

theorem pauseAct_carries (s : State) : Carries s (pauseAct s) := by
  unfold pauseAct
  split
  · split
    · exact (Carries.of .same).trans (enterState_carries .paused .pauseDone _)
    · exact .of .same
  · exact .refl s

theorem runoutAct_carries (s : State) : Carries s (runoutAct s) := by
  unfold runoutAct enterSweep
  split
  · split
    · exact (Carries.of .same).trans (enterState_carries .sweep .runoutDone _)
    · exact (Carries.of .same).trans (enterState_carries .jobIdle .runoutDone _)
  · exact .refl s

theorem settleWork_carries (s : State) : Carries s (settleWork s) :=
  (purgeAct_carries s).trans ((gateAct_carries _).trans ((releaseAct_carries _).trans ((folderAct_carries _).trans
    ((positionsAct_carries _).trans ((indexAct_carries _).trans ((feedAct_carries _).trans
      ((pauseAct_carries _).trans (runoutAct_carries _))))))))

/-- Where no job is about to end, the blocks carry on with the sheet and the sets. -/
theorem react_carries (h : s.NoSweep) : Carries s (react s) := by
  refine (watchZones_carries s).trans ?_
  rw [react, settle_eq, sweepAct_noSweep _ ((settleWork_settles (watchZones s)).noSweep h)]
  exact (settleWork_carries _).trans (refresh_carries _)

end Sys2Proof.Machine
end

section
namespace Sys2Proof.Machine

/-! ### Roundings of the Fold Planner (R69, R73, R74, R79) -/

/-- A division rounded up is the least whole number that is large enough. -/
theorem ceilDiv_eq {a b q : Int} (pos : 0 < b) (enough : a ≤ b * q) (least : b * q < a + b) : ceilDiv a b = q := by
  have above : -q ≤ -a / b := Int.le_ediv_of_mul_le pos (by rw [Int.neg_mul, Int.mul_comm]; omega)
  have below : -a / b < -q + 1 := Int.ediv_lt_of_lt_mul pos (by rw [Int.add_mul, Int.neg_mul, Int.mul_comm q]; omega)
  unfold ceilDiv
  omega

/-- R69: the panel bounds of a folded sheet. -/
theorem panels_eq {p : FoldPlan} {length lo hi : Int} (folded : p.type ≠ .flat) (h : panelBounds p length lo hi) :
    panelLo length p = some lo ∧ panelHi length p = some hi := by
  unfold panelBounds at h
  unfold panelLo panelHi
  cases type : p.type <;> simp only [type] at h ⊢
  case flat => exact absurd type folded
  all_goals
    refine ⟨congrArg some (ceilDiv_eq (by decide) h.1 h.2.1), congrArg some ?_⟩
    omega

theorem panels_flat {p : FoldPlan} (length : Int) (flat : p.type = .flat) : panelLo length p = none ∧ panelHi length p = none := by
  unfold panelLo panelHi
  rw [flat]
  exact ⟨rfl, rfl⟩

/-- R73: the creep allowance. -/
theorem creep_eq {n caliper : Nat} {c : Int} (enough : (n - 1) * caliper * 3 ≤ 200 * c)
    (least : 200 * c < (n - 1) * caliper * 3 + 200) : creep n caliper = c := ceilDiv_eq (by decide) enough least

/-- R74: a stop is rounded to the nearest one. -/
theorem roundStop_eq {x y : Int} (h : nearestStop x y) : roundStop x = y := by
  obtain ⟨grid, low, high⟩ := h
  unfold roundStop
  dsimp only
  split <;> omega

/-- R74: the first stop is rounded down where rounding up would carry the packet past the envelope. -/
theorem roundFirstStop_eq {x y c fit : Int} (h : nearestStop x y) :
    roundFirstStop x c fit = if x < y ∧ fit < y - c then y - 5 else y := by
  obtain ⟨grid, low, high⟩ := h
  unfold roundFirstStop
  dsimp only
  split
  · split <;> omega
  · split <;> split <;> omega

/-- R79: the sheet weight, rounded half up. -/
theorem sheetWeight_eq {c : LineConfig} {w : Nat}
    (enough : 2000000 * w ≤ 2 * (c.grammage * c.sheetLength * c.sheetWidth) + 1000000)
    (least : 2 * (c.grammage * c.sheetLength * c.sheetWidth) + 1000000 < 2000000 * w + 2000000) : sheetWeight c = w := by
  unfold sheetWeight
  omega

/-! ### The stages (R70 to R78) -/

variable {c : LineConfig} {p : FoldPlan}

/-- R70: whether a sheet that is not folded fits, and whether one that is folded does. -/
theorem foldFits_flat (flat : p.type = .flat) : foldFits c p = decide ((c.sheetLength : Int) ≤ fitHi c) := by
  obtain ⟨lo, hi⟩ := panels_flat c.sheetLength flat
  rw [foldFits, lo, hi]

theorem foldFits_folded {lo hi : Int} (folded : p.type ≠ .flat) (h : panelBounds p c.sheetLength lo hi) :
    foldFits c p = decide (lo ≤ hi ∧ lo ≤ fitHi c) := by
  obtain ⟨lo, hi⟩ := panels_eq folded h
  rw [foldFits, lo, hi]
  exact (Bool.decide_and _ _).symm

theorem foldHeight_flat (flat : p.type = .flat) : foldHeight c p = ((c.sheetLength : Int), false) := by
  obtain ⟨lo, hi⟩ := panels_flat c.sheetLength flat
  rw [foldHeight, lo, hi]

theorem foldHeight_folded {lo hi : Int} (folded : p.type ≠ .flat) (h : panelBounds p c.sheetLength lo hi) :
    foldHeight c p = chooseHeight (fitHi c) (windowLo c p) (windowHi c p) lo hi := by
  obtain ⟨lo, hi⟩ := panels_eq folded h
  rw [foldHeight, lo, hi]

/-- R71: the middle of the heights that fit. -/
theorem chooseHeight_within {fit wlo whi plo phi h : Int} (room : max wlo plo ≤ min fit (min whi phi))
    (low : 2 * h ≤ max wlo plo + min fit (min whi phi)) (high : max wlo plo + min fit (min whi phi) < 2 * h + 2) :
    chooseHeight fit wlo whi plo phi = (h, false) := by
  unfold chooseHeight
  rw [if_pos room]
  exact Prod.ext (by dsimp only; omega) rfl

/-- R72: with no height that fits the set is marked. -/
theorem chooseHeight_marked {fit wlo whi plo phi : Int} (none : min fit (min whi phi) < max wlo plo) :
    chooseHeight fit wlo whi plo phi = (min fit (max plo wlo), true) := by
  unfold chooseHeight
  rw [if_neg (by omega), max_comm]

/-- R74 to R76: the stops of each folded type, and the effective height. -/
theorem foldStops_eq {n : Nat} {h cr x1 x2 s1 s2 : Int} (allowance : creep n c.sheetCaliper = cr) (first : nearestStop (h + cr) x1)
    (clamped1 : s1 = inPlateRange (if h + cr < x1 ∧ fitHi c < x1 - cr then x1 - 5 else x1))
    (second : nearestStop (h - p.nest + cr) x2) (clamped2 : s2 = inPlateRange x2) :
    foldStops c p n h =
      { stop1 := if p.type = .flat then none else some s1
        stop2 := if p.type = .letter ∨ p.type = .zig then some s2 else none
        heff := if p.type = .flat then h else s1 - cr
        stop2Clamped := decide ((p.type = .letter ∨ p.type = .zig) ∧ s2 ≠ x2) } := by
  have stop1 : clampStop (roundFirstStop (h + cr) cr (fitHi c)) = s1 := by rw [roundFirstStop_eq first]; exact clamped1.symm
  have stop2 : clampStop x2 = s2 := clamped2.symm
  unfold foldStops
  simp only [allowance, stop1, roundStop_eq second, stop2]
  cases p.type <;> simp

/-- R77: whether a set that is not unfit is marginal. -/
theorem isMarginal_eq {lo hi : Int} (h : panelBounds p c.sheetLength lo hi) (marked : Bool) (st : FoldStops) :
    isMarginal c p marked st = (marked || decide (st.heff < windowLo c p ∨ windowHi c p < st.heff) ||
      decide (p.type ≠ .flat ∧ st.heff < lo) || st.stop2Clamped) := by
  unfold isMarginal
  by_cases flat : p.type = .flat
  · rw [(panels_flat c.sheetLength flat).1]
    simp [flat, Bool.or_assoc]
  · rw [(panels_eq flat h).1]
    simp [flat, Bool.or_assoc]

/-! ### The whole computation (R66 to R80) -/

theorem addKindIf_eq (b : Bool) (k : FaultKind) (f : FaultSet) : addKindIf b k f = f ||| (if b then faultMask k else 0) := by
  cases b
  · exact (BitVec.or_zero).symm
  · rfl

theorem foldCompute_capacity {n ic iw : Nat} {b : Option Nat} (h : p.capacity < n) :
    foldCompute c p n ic iw b = foldEnded .foldCapacity := if_pos h

theorem foldCompute_unfit {n ic iw : Nat} {b : Option Nat} (room : n ≤ p.capacity) (h : foldFits c p = false) :
    foldCompute c p n ic iw b = foldEnded .foldUnfit := by
  rw [foldCompute, if_neg (by omega), h]
  rfl

/-- R66 to R80: a computation that is carried through. -/
theorem foldCompute_through {n ic iw : Nat} {b : Option Nat} {hm : Int × Bool} {st : FoldStops} (room : n ≤ p.capacity)
    (fits : foldFits c p = true) (height : foldHeight c p = hm) (stops : foldStops c p n hm.1 = st) :
    foldCompute c p n ic iw b =
      { heff := some st.heff.toNat, stop1 := st.stop1.map Int.toNat, stop2 := st.stop2.map Int.toNat
        marginal := !decide (fitHi c < st.heff) && isMarginal c p hm.2 st
        caliper := some (packetCaliper c p n ic), expected := some (expectedWeight c n iw)
        faults := addKindIf (fitHi c < st.heff) .foldUnfit <|
          addKindIf ((!decide (fitHi c < st.heff) && isMarginal c p hm.2 st) && p.policy == .divert) .foldMarginal <|
          addKindIf (c.fillMax < packetCaliper c p n ic) .overfill <|
          addKindIf (b.any fun bound => bound < expectedWeight c n iw) .overweight 0 } := by
  rw [foldCompute, if_neg (by omega), if_neg (by rw [fits]; decide), height]
  dsimp only
  rw [stops]
  cases b with
  | none => rw [Option.any_none]
  | some bound => rw [Option.any_some]

/-- R20, R66, R105: the record of a completed set with a match, in the terms of its plan's computation. -/
theorem completedRecord_matched {s : State} {r : SetRecord} {rec : PieceRecord} {f : FoldResult} (matched : r.record = some rec)
    (plan : s.plant.plans[rec.plan] = some p)
    (computed : foldCompute s.cfg p r.received (s.insertCaliper s.plant.classes[rec.insertClass])
      (s.insertWeight s.plant.classes[rec.insertClass]) (s.postal.steps.bind List.getLast?) = f) :
    s.completedRecord r = { r with
      stage := .complete, stationsNeeded := s.plant.classes[rec.insertClass], heff := f.heff, stop1 := f.stop1, stop2 := f.stop2
      marginal := f.marginal, caliper := f.caliper, expected := f.expected
      faults := r.faults ||| f.faults |||
        (if s.stationMissing s.plant.classes[rec.insertClass] then faultMask .stationOff else 0) } := by
  have result : s.planSet rec s.plant.classes[rec.insertClass] r.received = f := by
    rw [State.planSet, plan]
    exact computed
  rw [State.completedRecord, matched]
  simp only [result, addKindIf_eq]

/-- R105: a station that the set needs is OFF or TRIPPED. -/
theorem stationMissing_iff {s : State} {t : StationSet} : s.stationMissing t = true ↔
    ∃ n : StationId, hasStation t n = true ∧ ((s.station n).state = .off ∨ (s.station n).state = .tripped) := by
  have all : ∀ n : StationId, n ∈ allStations := by decide
  simp [State.stationMissing, stationList, all]

end Sys2Proof.Machine
end

section
namespace Sys2Proof.Machine

variable {s : State} {r : SetRecord} {rec : PieceRecord} {p : FoldPlan}

/-! ### The record of a completed set (R66 to R80, R105) -/

/-- R105: the fault of a set that needs a station out of use. -/
def State.offFault (s : State) (rec : PieceRecord) : FaultSet :=
  if s.stationMissing s.plant.classes[rec.insertClass] then faultMask .stationOff else 0

/-- R66: a computation that ends early gives the set its one fault. -/
theorem completedRecord_ended {k : FaultKind} (matched : r.record = some rec) (plan : s.plant.plans[rec.plan] = some p)
    (ended : ∀ ic iw b, foldCompute s.cfg p r.received ic iw b = foldEnded k) :
    s.completedRecord r = { r with
      stage := .complete, stationsNeeded := s.plant.classes[rec.insertClass], heff := none, stop1 := none, stop2 := none
      marginal := false, caliper := none, expected := none, faults := r.faults ||| faultMask k ||| s.offFault rec } :=
  completedRecord_matched matched plan (ended _ _ _)

/-- The faults of a computation join those that the set has, each once and in any order. -/
theorem joinFaults (f unfit marginal overfill overweight off : FaultSet) :
    f ||| (0 ||| overweight ||| overfill ||| marginal ||| unfit) ||| off =
      f ||| unfit ||| marginal ||| overfill ||| overweight ||| off := by
  rw [show (0 : FaultSet) ||| overweight = overweight from BitVec.zero_or]
  ac_rfl

/-- R68 to R80: the record of a set whose computation is carried through. -/
theorem completedRecord_through {h : Int} {marked : Bool} {st : FoldStops} {cal wt : Nat} (matched : r.record = some rec)
    (plan : s.plant.plans[rec.plan] = some p) (room : r.received ≤ p.capacity) (fits : foldFits s.cfg p = true)
    (height : foldHeight s.cfg p = (h, marked)) (stops : foldStops s.cfg p r.received h = st)
    (caliper : packetCaliper s.cfg p r.received (s.insertCaliper s.plant.classes[rec.insertClass]) = cal)
    (weight : expectedWeight s.cfg r.received (s.insertWeight s.plant.classes[rec.insertClass]) = wt) :
    s.completedRecord r = { r with
      stage := .complete, stationsNeeded := s.plant.classes[rec.insertClass], heff := some st.heff.toNat
      stop1 := st.stop1.map Int.toNat, stop2 := st.stop2.map Int.toNat
      marginal := !decide (fitHi s.cfg < st.heff) && isMarginal s.cfg p marked st, caliper := some cal, expected := some wt
      faults := r.faults ||| (if fitHi s.cfg < st.heff then faultMask .foldUnfit else 0) |||
        (if (!decide (fitHi s.cfg < st.heff) && isMarginal s.cfg p marked st) = true ∧ p.policy = .divert
          then faultMask .foldMarginal else 0) |||
        (if s.cfg.fillMax < cal then faultMask .overfill else 0) |||
        (if (s.postal.steps.bind List.getLast?).any fun bound => bound < wt then faultMask .overweight else 0) |||
        s.offFault rec } := by
  rw [completedRecord_matched matched plan (foldCompute_through room fits height stops), caliper, weight]
  simp only [addKindIf_eq, joinFaults, decide_eq_true_eq, Bool.and_eq_true, beq_iff_eq, State.offFault]

/-- R78: the caliper of a packet. -/
theorem packetCaliper_eq {n ic : Nat} (c : LineConfig) : packetCaliper c p n ic =
    n * c.sheetCaliper * (match p.type with | .flat => 1 | .single => 2 | .letter => 3 | .zig => 3) + ic := by
  cases type : p.type <;> simp only [packetCaliper, layers, type]

/-! ### The gate and the sheet-in event (R83) -/

/-- R83: the gate tests for a held sheet. -/
theorem gateAct_held {i : Slot} (held : s.sets.gate = .closed (some i)) : gateAct s = { s with
    sets.gate := if s.sets.accumulator = none ∧ s.working = true then .passing i else .closed (some i) } := by
  rw [gateAct, held]
  simp only [State.gateReady, Bool.and_eq_true, Option.isNone_iff_eq_none]
  split
  · rfl
  · rw [← held]

/-- R8, R83: a sheet enters the accumulator. -/
def State.entered (s : State) (i : Slot) : State :=
  { s.modSet i (fun r => { r with received := r.received + 1 }) with
    sets.gate := .closed none
    sets.accumulator := some (s.sets.accumulator.getD i)
    coll.transit := .none }

theorem sheetEnters_decided {i : Slot} {closes : Bool} (h : s.coll.transit = .decided i closes) :
    sheetEnters i s = if closes then completeSet i (s.entered i) else s.entered i := by
  unfold sheetEnters State.entered
  simp [h]

/-- SHEET_IN (R83). -/
theorem exec_sheetIn_closed {held : Option Slot} (h : s.sets.gate = .closed held) : exec .sheetIn s = .next (react s) := by
  change execSheetIn s = _
  rw [execSheetIn, h]

theorem exec_sheetIn_passing {i : Slot} (h : s.sets.gate = .passing i) : exec .sheetIn s = .next (react (sheetEnters i s)) := by
  change execSheetIn s = _
  rw [execSheetIn, h]

/-! ### The completed set in the flow (R20) -/

theorem map_set_outline (pool : Vector (Option SetRecord) 16) (i : Slot) (r : Option SetRecord) :
    (pool.set i.val r i.isLt).map (Option.map SetRecord.outline) =
      (pool.map (Option.map SetRecord.outline)).set i.val (r.map SetRecord.outline) i.isLt := by
  rw [Vector.map_set]

/-- R8, R83: the set that a sheet enters. -/
theorem entered_setAt {i : Slot} (holds : s.setAt i = some r) :
    (s.entered i).setAt i = some { r with received := r.received + 1 } :=
  (setAt_modSet_self s i _).trans (congrArg (Option.map _) holds)

/-- R8, R20, R83: what a sheet that enters leaves of its set, and what it counts. -/
def State.enteredRecord (s : State) (r : SetRecord) (closes : Bool) : SetRecord :=
  if closes then s.completedRecord { r with received := r.received + 1 } else { r with received := r.received + 1 }

/-- R8, R20, R83: the sheet-in event of a decided sheet. -/
theorem sheetEnters_eq {i : Slot} {closes : Bool} (decided : s.coll.transit = .decided i closes) (holds : s.setAt i = some r) :
    sheetEnters i s = { s with
      reg := { s.reg with
        pool := s.reg.pool.set i.val (some (s.enteredRecord r closes)) i.isLt
        counters := if closes then s.reg.counters.completed (s.enteredRecord r closes).faults else s.reg.counters }
      sets := { s.sets with
        gate := .closed none, accumulator := some (s.sets.accumulator.getD i)
        release := if closes then .pending else s.sets.release }
      coll.transit := .none } := by
  have pool : (s.entered i).reg.pool = s.reg.pool.set i.val (some { r with received := r.received + 1 }) i.isLt := by
    unfold State.entered State.modSet
    rw [holds]
    rfl
  rw [sheetEnters_decided decided]
  cases closes with
  | false =>
    rw [if_neg (by decide)]
    unfold State.entered State.modSet
    rw [holds]
    rfl
  | true =>
    rw [if_pos rfl, completeSet_some (entered_setAt holds), pool, Vector.set_set]
    rfl

theorem sheetEnters_setAt {i : Slot} {closes : Bool} (decided : s.coll.transit = .decided i closes) (holds : s.setAt i = some r) :
    (sheetEnters i s).setAt i = some (s.enteredRecord r closes) := by
  rw [sheetEnters_eq decided holds]
  simp [State.setAt]

theorem sheetEnters_flow {i : Slot} {closes : Bool} (decided : s.coll.transit = .decided i closes) (holds : s.setAt i = some r) :
    (sheetEnters i s).flow = { s.flow.put i (some (s.enteredRecord r closes)) with
      accumulator := some (s.sets.accumulator.getD i)
      register := { s.flow.register with counters :=
        if closes then s.reg.counters.completed (s.enteredRecord r closes).faults else s.reg.counters } } := by
  rw [sheetEnters_eq decided holds]
  unfold State.flow Flow.put
  simp only [map_set_outline]

end Sys2Proof.Machine
end

section
namespace Sys2Proof.Machine

variable {s : State}

/-- R83: the line states in which the gate may open. -/
theorem working_iff : s.working = true ↔ s.line.state = .proving ∨ s.line.state = .running ∨ s.line.state = .runout := by
  unfold State.working
  cases s.line.state <;> simp [LineState.working]

/-- R83: the gate opens for a held sheet, or stays closed. -/
theorem exec_sheetGateOpen {i : Slot} (held : s.sets.gate = .closed (some i)) :
    ∃ t, exec .sheetGateOpen s = .next t ∧
      { t with sets.gate := s.sets.gate, track.zones := s.track.zones, coll.feedHold := s.coll.feedHold } = s ∧
      t.sets.gate = if s.sets.accumulator = none ∧ (s.line.state = .proving ∨ s.line.state = .running ∨ s.line.state = .runout)
        then .passing i else .closed (some i) := by
  refine ⟨refresh (gateAct s), rfl, ?_, ?_⟩
  · rw [gateAct_held held]
    rfl
  · rw [gateAct_held held]
    simp only [← working_iff]
    rfl

/-- R8, R20, R83: the sheet-in event of a decided sheet at a passing gate. -/
theorem exec_sheetIn_decided (quiet : s.NoSweep) {i : Slot} {r : SetRecord} {closes : Bool} (passing : s.sets.gate = .passing i)
    (holds : s.setAt i = some r) (decided : s.coll.transit = .decided i closes) :
    ∃ t q, exec .sheetIn s = .next t ∧ t.fixed = s.fixed ∧
      q = (if closes then s.completedRecord { r with received := r.received + 1 } else { r with received := r.received + 1 }) ∧
      t.HoldsSet i q ∧
      t.flow = { s.flow.put i (some q) with
        accumulator := if s.sets.accumulator = none then some i else s.sets.accumulator
        register := { s.flow.register with counters :=
          if closes then
            (if q.faults = 0 then { s.reg.counters with good := min (s.reg.counters.good + 1) 4294967295 }
              else { s.reg.counters with faulted := min (s.reg.counters.faulted + 1) 4294967295 })
          else s.reg.counters } } ∧
      (s.Calm → t.sets.gate = .closed none ∧ (∀ i' c, t.coll.transit ≠ .decided i' c) ∧ (closes = true → t.sets.release ≠ .none)) := by
  have entered := sheetEnters_eq decided holds
  have settles : Settles (sheetEnters i s) (react (sheetEnters i s)) := react_settles _ (by rw [entered]; exact quiet)
  have carries : Carries (sheetEnters i s) (react (sheetEnters i s)) := react_carries (by rw [entered]; exact quiet)
  have place : some (s.sets.accumulator.getD i) = if s.sets.accumulator = none then some i else s.sets.accumulator := by
    cases s.sets.accumulator <;> simp
  refine ⟨react (sheetEnters i s), s.enteredRecord r closes, exec_sheetIn_passing passing, ?_, rfl,
    settles.holdsSet (holdsSet_of_setAt (sheetEnters_setAt decided holds)), ?_, fun _ => ⟨?_, fun j c => ?_, fun closed => ?_⟩⟩
  · exact settles.fixed.trans (by rw [entered]; rfl)
  · rw [settles.flow, sheetEnters_flow decided holds, place]
    rfl
  · refine (carries.gate ?_).trans ?_
    · left; rw [entered]; exact Option.some_ne_none _
    · rw [entered]
  · rw [ne_eq, carries.decided j c, entered]
    exact Transit.noConfusion
  · refine carries.release ?_
    rw [entered, closed]
    exact Release.noConfusion

/-- R70: a sheet that fits, folded or not. -/
theorem foldFits_eq {p : FoldPlan} {lo hi : Int} (bounds : panelBounds p s.cfg.sheetLength lo hi) :
    foldFits s.cfg p = decide ((p.type = .flat ∧ s.cfg.sheetLength ≤ fitHi s.cfg) ∨
      (p.type ≠ .flat ∧ lo ≤ hi ∧ lo ≤ fitHi s.cfg)) := by
  by_cases flat : p.type = .flat
  · rw [foldFits_flat flat]
    simp [flat]
  · rw [foldFits_folded flat bounds]
    simp [flat]

/-- R71, R72: the packet height and its mark. -/
theorem foldHeight_eq {p : FoldPlan} {lo hi h : Int} {marked : Bool} (bounds : panelBounds p s.cfg.sheetLength lo hi)
    (flat : p.type = .flat → h = s.cfg.sheetLength ∧ marked = false)
    (within : p.type ≠ .flat → max (windowLo s.cfg p) lo ≤ min (fitHi s.cfg) (min (windowHi s.cfg p) hi) →
      2 * h ≤ max (windowLo s.cfg p) lo + min (fitHi s.cfg) (min (windowHi s.cfg p) hi) ∧
        max (windowLo s.cfg p) lo + min (fitHi s.cfg) (min (windowHi s.cfg p) hi) < 2 * h + 2 ∧ marked = false)
    (outside : p.type ≠ .flat → min (fitHi s.cfg) (min (windowHi s.cfg p) hi) < max (windowLo s.cfg p) lo →
      h = min (fitHi s.cfg) (max lo (windowLo s.cfg p)) ∧ marked = true) : foldHeight s.cfg p = (h, marked) := by
  by_cases type : p.type = .flat
  · obtain ⟨rfl, rfl⟩ := flat type
    exact foldHeight_flat type
  · rw [foldHeight_folded type bounds]
    by_cases room : max (windowLo s.cfg p) lo ≤ min (fitHi s.cfg) (min (windowHi s.cfg p) hi)
    · obtain ⟨low, high, rfl⟩ := within type room
      exact chooseHeight_within room low high
    · obtain ⟨rfl, rfl⟩ := outside type (by omega)
      exact chooseHeight_marked (by omega)

/-- Settles O32, by the sheet's entry written out as one state, and each rounding of the planner as the whole number the rules describe. -/
theorem gateOpensAndSheetEnters : Obligations.GateOpensAndSheetEnters := by
  refine ⟨fun s => ⟨fun i held => exec_sheetGateOpen held, fun quiet held closed => ⟨react s, exec_sheetIn_closed closed,
    react_fixed s, react_flow s quiet⟩, fun quiet i r closes => exec_sheetIn_decided quiet⟩,
    fun s r rec p q off matched plan completed missing => ?_⟩
  have missing : off = s.offFault rec := by
    rw [missing, State.offFault]
    exact if_congr stationMissing_iff.symm rfl rfl
  subst completed missing
  refine ⟨fun large => completedRecord_ended matched plan fun _ _ _ => foldCompute_capacity large,
    fun fit lo hi panelLo panelHi h creep x1 x2 s1 s2 heff marked unfit marginal ws cal wt room fit_eq lo_eq hi_eq bounds => ⟨fun none => ?_, fun fits flat within outside enough least first clamped1 second clamped2 heff_eq unfit_eq marginal_eq
      cal_eq ws_enough ws_least wt_eq => ?_⟩⟩
  · refine completedRecord_ended matched plan fun _ _ _ => foldCompute_unfit room ?_
    rw [foldFits_eq bounds, decide_eq_false_iff_not, ← show fit = fitHi s.cfg from fit_eq]
    rcases none with ⟨flat, h⟩ | ⟨folded, h⟩
    · simp [flat, h]
    · simp only [folded, false_and, false_or, not_false_eq_true, true_and, ne_eq]
      omega
  · have fit_eq : fit = fitHi s.cfg := fit_eq
    have lo_eq : lo = windowLo s.cfg p := lo_eq
    have hi_eq : hi = windowHi s.cfg p := hi_eq
    subst fit_eq lo_eq hi_eq
    have stops := foldStops_eq (c := s.cfg) (p := p) (creep_eq enough least) first clamped1 second clamped2
    rw [← heff_eq] at stops
    have weight : expectedWeight s.cfg r.received (s.insertWeight s.plant.classes[rec.insertClass]) = wt := by
      rw [expectedWeight, sheetWeight_eq ws_enough ws_least]
      exact wt_eq.symm
    have caliper : packetCaliper s.cfg p r.received (s.insertCaliper s.plant.classes[rec.insertClass]) = cal :=
      (packetCaliper_eq s.cfg).trans cal_eq.symm
    have through := completedRecord_through matched plan room (by rw [foldFits_eq bounds]; exact decide_eq_true fits)
      (foldHeight_eq bounds flat within outside) stops caliper weight
    rw [isMarginal_eq bounds, ← unfit_eq, ← marginal_eq] at through
    refine through.trans ?_
    rw [unfit_eq]
    simp only [decide_eq_true_eq, apply_ite (Option.map Int.toNat), Option.map_none, Option.map_some]
    cases s.postal.steps.bind List.getLast? with
    | none => simp only [Option.any_none, Bool.false_eq_true, if_false]
    | some bound => simp only [Option.any_some, decide_eq_true_eq]

end Sys2Proof.Machine
end

section
namespace Sys2Proof.Machine

variable {s t u : State}

/-! ### From the decision of a sheet to the end of its command -/

/-- A sheet that has been handed over, its job and its sets are carried to the end of the command. -/
structure Hands (s t : State) : Prop extends Carries s t where
  flow : t.flow = s.flow
  noSweep : s.NoSweep → t.NoSweep
  holds : ∀ i r, s.HoldsSet i r → t.HoldsSet i r

namespace Hands

theorem refl (s : State) : Hands s s := ⟨.refl s, rfl, id, fun _ _ => id⟩

theorem trans (h : Hands s t) (g : Hands t u) : Hands s u :=
  ⟨h.toCarries.trans g.toCarries, g.flow.trans h.flow, g.noSweep ∘ h.noSweep, fun i r q => g.holds i r (h.holds i r q)⟩

theorem of (settles : Settles s t) (carries : Carries s t) : Hands s t :=
  ⟨carries, settles.flow, settles.noSweep, fun _ _ => settles.holdsSet⟩

theorem foldl {α : Type} {f : State → α → State} (h : ∀ s a, Hands s (f s a)) : ∀ (l : List α) (s : State), Hands s (l.foldl f s)
  | [], s => refl s
  | a :: l, s => (h s a).trans (foldl h l (f s a))

end Hands

theorem react_hands (quiet : s.NoSweep) : Hands s (react s) := .of (react_settles s quiet) (react_carries quiet)

theorem faultStop_hands (r : Reason) (s : State) : Hands s (faultStop r s) := .of (faultStop_settles s r) (faultStop_carries r s)

/-! ### The READ monitor (R18, R50 to R53) -/

/-- The READ monitor's level and good count written. -/
theorem readLevel_hands (l : MonLevel) : Hands s { s with mon.read := l } := ⟨.of .same, rfl, id, fun _ _ => id⟩

/-- R50, R54, R55: the READ monitor's trip, reported before it is taken. -/
def State.readTripped (s : State) (cause : TripCause) (piece : Option Nat) : State :=
  { s with
    mon.read := .zero
    link := s.link.push s.time (.monitorTrip .read cause (s.mon.read.level + s.cfg.readMon.u) s.cfg.readMon .stop
      (stopOutcome s.line.state) piece) }

/-- R50 to R53: a fault event of the READ monitor. -/
theorem readFault_closed {cause : TripCause} {piece : Option Nat} (closed : s.jobOpen = false) :
    monitorFault .read cause piece s = s := by
  have takes : s.takesEvents .read = false := by simp [State.takesEvents, closed]
  rw [monitorFault, faultEvent, takes]
  rfl

theorem readFault_below {cause : TripCause} {piece : Option Nat} (opened : s.jobOpen = true)
    (below : s.mon.read.level + s.cfg.readMon.u < s.cfg.readMon.t) :
    monitorFault .read cause piece s = { s with mon.read := ⟨s.mon.read.level + s.cfg.readMon.u, s.mon.read.good⟩ } := by
  have takes : s.takesEvents .read = true := by simp [State.takesEvents, opened]
  have event : faultEvent .read cause piece s = (putMonLevel .read ⟨s.mon.read.level + s.cfg.readMon.u, s.mon.read.good⟩ s, none) := by
    rw [faultEvent, if_pos takes]
    exact if_pos below
  rw [monitorFault, event]
  rfl

theorem readFault_trips {cause : TripCause} {piece : Option Nat} (opened : s.jobOpen = true)
    (reached : s.cfg.readMon.t ≤ s.mon.read.level + s.cfg.readMon.u) :
    monitorFault .read cause piece s = faultStop .readMonitor (s.readTripped cause piece) := by
  have takes : s.takesEvents .read = true := by simp [State.takesEvents, opened]
  have event : faultEvent .read cause piece s = tripMonitor .read cause (s.mon.read.level + s.cfg.readMon.u) piece s := by
    rw [faultEvent, if_pos takes]
    exact if_neg (Nat.not_lt.2 reached)
  rw [monitorFault, event]
  rfl

theorem readTripped_hands (cause : TripCause) (piece : Option Nat) : Hands s (s.readTripped cause piece) :=
  ⟨.of (.one (.monitorTrip .read cause (s.mon.read.level + s.cfg.readMon.u) s.cfg.readMon .stop (stopOutcome s.line.state) piece)),
    rfl, id, fun _ _ => id⟩

theorem readFault_hands (cause : TripCause) (piece : Option Nat) (s : State) : Hands s (monitorFault .read cause piece s) := by
  by_cases opened : s.jobOpen = true
  · by_cases below : s.mon.read.level + s.cfg.readMon.u < s.cfg.readMon.t
    · rw [readFault_below opened below]
      exact readLevel_hands _
    · rw [readFault_trips opened (by omega)]
      exact (readTripped_hands cause piece).trans (faultStop_hands _ _)
  · rw [readFault_closed (Bool.eq_false_iff.2 opened)]
    exact .refl s

/-- R51: a good event of the READ monitor. -/
theorem readGood_eq (opened : s.jobOpen = true) : monitorGood .read s = { s with mon.read := goodStep s.cfg.readMon.d s.mon.read } := by
  have takes : s.takesEvents .read = true := by simp [State.takesEvents, opened]
  rw [monitorGood, if_pos takes]
  rfl

theorem readGood_hands (s : State) : Hands s (monitorGood .read s) := by
  unfold monitorGood
  split
  · exact readLevel_hands _
  · exact .refl s

theorem readGood_line (s : State) : (monitorGood .read s).line = s.line := by
  unfold monitorGood
  split <;> rfl

theorem giveReadEvents_hands (sheet : Sheet) (d : Decision) (s : State) : Hands s (giveReadEvents sheet d s) := by
  have faults := Hands.foldl (fun s (e : TripCause × Option Nat) => readFault_hands e.1 e.2 s) (readFaults sheet d (s.decidedPiece d)) s
  unfold giveReadEvents
  split
  · exact faults.trans (readGood_hands _)
  · exact faults

/-- R50: fault events that do not trip the READ monitor raise its level. -/
theorem readFaults_below (opened : s.jobOpen = true) (es : List (TripCause × Option Nat))
    (below : es = [] ∨ s.mon.read.level + es.length * s.cfg.readMon.u < s.cfg.readMon.t) :
    es.foldl (fun s e => monitorFault .read e.1 e.2 s) s =
      { s with mon.read := ⟨s.mon.read.level + es.length * s.cfg.readMon.u, s.mon.read.good⟩ } := by
  induction es generalizing s with
  | nil => simp
  | cons e es ih =>
    have below : s.mon.read.level + (es.length + 1) * s.cfg.readMon.u < s.cfg.readMon.t := by simpa using below
    rw [Nat.add_mul, Nat.one_mul] at below
    rw [List.foldl_cons, readFault_below opened (by omega)]
    have rest := ih (s := { s with mon.read := ⟨s.mon.read.level + s.cfg.readMon.u, s.mon.read.good⟩ }) opened
      (.inr (by change s.mon.read.level + s.cfg.readMon.u + es.length * s.cfg.readMon.u < s.cfg.readMon.t; omega))
    rw [rest, List.length_cons, Nat.add_mul, Nat.one_mul, Nat.add_comm (es.length * _), ← Nat.add_assoc]
    rfl

/-- R18, R50, R51: the READ monitor after the events of a sheet that do not trip it. -/
theorem giveReadEvents_below {sheet : Sheet} {d : Decision} {n : Nat} (opened : s.jobOpen = true)
    (count : (readFaults sheet d (s.decidedPiece d)).length = n)
    (below : n = 0 ∨ s.mon.read.level + n * s.cfg.readMon.u < s.cfg.readMon.t) :
    (giveReadEvents sheet d s).mon.read = if readGood sheet d then
        goodStep s.cfg.readMon.d ⟨s.mon.read.level + n * s.cfg.readMon.u, s.mon.read.good⟩
      else ⟨s.mon.read.level + n * s.cfg.readMon.u, s.mon.read.good⟩ := by
  subst count
  have faults := readFaults_below opened (readFaults sheet d (s.decidedPiece d)) (below.imp_left List.eq_nil_of_length_eq_zero)
  rw [giveReadEvents]
  simp only [faults]
  split
  · rw [readGood_eq (s := { s with mon.read := ⟨s.mon.read.level + _ * s.cfg.readMon.u, s.mon.read.good⟩ }) opened]
    rfl
  · rfl

/-! ### The stop at a trip (R22, R53) -/

theorem faultStop_stays {reason : Reason} (h : s.line.state = .faultStop) : faultStop reason s = s :=
  faultStop_rest (by unfold State.motion; rw [h]; rfl) (by rw [h]; exact LineState.noConfusion)

/-- A line in FAULT_STOP stays as it is through further events. -/
theorem readFault_stopped {cause : TripCause} {piece : Option Nat} (h : s.line.state = .faultStop) :
    (monitorFault .read cause piece s).line = s.line := by
  by_cases opened : s.jobOpen = true
  · by_cases below : s.mon.read.level + s.cfg.readMon.u < s.cfg.readMon.t
    · rw [readFault_below opened below]
    · rw [readFault_trips opened (by omega), faultStop_stays (by exact h)]
      rfl
  · rw [readFault_closed (Bool.eq_false_iff.2 opened)]

theorem readFaults_stopped (es : List (TripCause × Option Nat)) (h : s.line.state = .faultStop) :
    (es.foldl (fun s e => monitorFault .read e.1 e.2 s) s).line = s.line := by
  induction es generalizing s with
  | nil => rfl
  | cons e es ih =>
    have line := readFault_stopped (cause := e.1) (piece := e.2) h
    exact (ih (by rw [line]; exact h)).trans line

/-- R22, R53: the first fault event of a sheet trips the READ monitor, and the line is stopped. -/
theorem giveReadEvents_trips {sheet : Sheet} {d : Decision} (opened : s.jobOpen = true)
    (faulty : readFaults sheet d (s.decidedPiece d) ≠ []) (reached : s.cfg.readMon.t ≤ s.mon.read.level + s.cfg.readMon.u)
    (moves : s.motion = true ∨ s.line.state = .pausing) :
    ∃ cause piece, Hands (faultStop .readMonitor (s.readTripped cause piece)) (giveReadEvents sheet d s) ∧
      (giveReadEvents sheet d s).line = s.faultLine .readMonitor := by
  obtain ⟨e, es, events⟩ := List.exists_cons_of_ne_nil faulty
  have stopped : (faultStop .readMonitor (s.readTripped e.1 e.2)).line = s.faultLine .readMonitor := by
    rw [faultStop_eq (s := s.readTripped e.1 e.2) moves]; rfl
  have rest := Hands.foldl (fun s (e : TripCause × Option Nat) => readFault_hands e.1 e.2 s) es
    (faultStop .readMonitor (s.readTripped e.1 e.2))
  have line := readFaults_stopped (s := faultStop .readMonitor (s.readTripped e.1 e.2)) es (by rw [stopped]; rfl)
  refine ⟨e.1, e.2, ?_⟩
  rw [giveReadEvents, events, List.foldl_cons, readFault_trips opened reached]
  split
  · exact ⟨rest.trans (readGood_hands _), (readGood_line _).trans (line.trans stopped)⟩
  · exact ⟨rest, line.trans stopped⟩

/-- R22: the set of the sheet in transit is disturbed by the stop. -/
theorem faultStop_disturbs {reason : Reason} {j : Slot} {closes : Bool} {q : SetRecord}
    (moves : s.motion = true ∨ s.line.state = .pausing) (decided : s.coll.transit = .decided j closes)
    (holds : (faultStop reason s).setAt j = some q) : hasKind q.faults .disturbed = true := by
  rw [faultStop_eq moves, (stopped_cutsOff _ _ _).disturbed j (.inl ⟨rfl, .inr ⟨closes, decided⟩⟩), Option.map_eq_some_iff] at holds
  obtain ⟨r, -, rfl⟩ := holds
  simp [hasKind, faultMask, faultBit]

/-- A slot that holds a set held one before. -/
theorem Hands.setBefore (h : Hands s t) {j : Slot} {q : SetRecord} (holds : t.setAt j = some q) : ∃ r, s.setAt j = some r := by
  have sets : (s.setAt j).map SetRecord.outline = (t.setAt j).map SetRecord.outline := by
    simpa [State.flow, State.setAt] using congrArg (fun f : Flow => f.sets[j]) h.flow.symm
  rw [holds] at sets
  obtain ⟨r, at_s, -⟩ := Option.map_eq_some_iff.1 sets
  exact ⟨r, at_s⟩

theorem and_getLsbD {f g : FaultSet} {n : Nat} (sub : f &&& g = f) (h : f.getLsbD n = true) : g.getLsbD n = true := by
  rw [← sub, BitVec.getLsbD_and, Bool.and_eq_true] at h
  exact h.2

/-- A kind that a set has, it keeps. -/
theorem Hands.hasKind (h : Hands s t) {j : Slot} {k : FaultKind}
    (before : ∀ r, s.setAt j = some r → hasKind r.faults k = true) {q : SetRecord} (holds : t.setAt j = some q) :
    Sys2Proof.Machine.hasKind q.faults k = true := by
  obtain ⟨r, at_s⟩ := h.setBefore holds
  obtain ⟨x, at_t, -, faults⟩ := h.holds j r (holdsSet_of_setAt at_s)
  rw [at_t, Option.some.injEq] at holds
  subst holds
  exact and_getLsbD faults (before r at_s)

end Sys2Proof.Machine
end

section
namespace Sys2Proof.Machine

variable {s t : State}

/-! ### The match as a function of the piece queue (R30 to R33) -/

/-- The part of a state that a match reads. -/
structure SamePieces (s t : State) : Prop where
  queue : t.reg.queue = s.reg.queue
  window : t.reg.window = s.reg.window
  armed : t.reg.lowArmed = s.reg.lowArmed
  missing : t.reg.counters.missing = s.reg.counters.missing
  job : t.reg.job = s.reg.job
  base : t.reg.base = s.reg.base
  plant : t.plant = s.plant

theorem SamePieces.refl (s : State) : SamePieces s s := ⟨rfl, rfl, rfl, rfl, rfl, rfl, rfl⟩

/-- What a match writes. -/
structure MatchEffect where
  answer : MatchAnswer
  queue : List PieceRecord
  window : List (Nat × PieceState)
  armed : Bool
  missing : Nat
  reports : List Report

/-- The state after a match. -/
def State.afterMatch (s : State) (e : MatchEffect) : State :=
  { s with
    reg.queue := e.queue, reg.window := e.window, reg.lowArmed := e.armed, reg.counters.missing := e.missing
    link := s.link.pushAll s.time e.reports }

/-- A match that writes nothing. -/
def State.noEffect (s : State) (answer : MatchAnswer) : MatchEffect :=
  { answer, queue := s.reg.queue, window := s.reg.window, armed := s.reg.lowArmed, missing := s.reg.counters.missing, reports := [] }

theorem afterMatch_noEffect (same : SamePieces s t) (answer : MatchAnswer) : t.afterMatch (s.noEffect answer) = t := by
  unfold State.afterMatch State.noEffect
  rw [← same.queue, ← same.window, ← same.armed, ← same.missing]
  rfl

/-- R30: whether the low-water report is due after records were removed. -/
def lowFires (low before after : Nat) (armed : Bool) : Bool := decide (low ≤ before) && decide (after < low) && armed

/-- R30: the low-water test. -/
theorem lowWater_eq {low : Nat} (mark : s.cfg.queueLow = low) (before : Nat) : lowWater before s = { s with
    reg.lowArmed := s.reg.lowArmed && !lowFires low before s.reg.queue.length s.reg.lowArmed
    link := s.link.pushAll s.time (if lowFires low before s.reg.queue.length s.reg.lowArmed
      then [.queueLow s.reg.queue.length s.reg.base] else []) } := by
  subst mark
  unfold lowWater lowFires
  split
  · rename_i fires
    rw [fires, Bool.not_true, Bool.and_false]
    rfl
  · rename_i rests
    rw [Bool.eq_false_iff.2 rests, Bool.not_false, Bool.and_true]
    rfl

/-- R31: the records passed over, older ones first. -/
theorem foldl_passOver (p : Nat) (older : List PieceRecord) (s : State) : older.foldl (passOver p) s = { s with
    reg.window := older.foldl (fun w r => windowSet w r.piece .missing) s.reg.window
    reg.counters.missing := older.foldl (fun k _ => countUp k 1) s.reg.counters.missing
    link := s.link.pushAll s.time (older.map fun r => .pieceMissing r.piece p) } := by
  induction older generalizing s with
  | nil => rfl
  | cons r older ih => rw [List.foldl_cons, ih]; rfl

/-- R30, R31: a record taken from the queue, those before it passed over. -/
def State.taken (s : State) (p : Nat) (r : PieceRecord) (older queue : List PieceRecord) : MatchEffect :=
  { answer := .matched r, queue
    window := older.foldl (fun w r => windowSet w r.piece .missing) s.reg.window
    armed := s.reg.lowArmed && !lowFires s.cfg.queueLow s.reg.queue.length queue.length s.reg.lowArmed
    missing := older.foldl (fun k _ => countUp k 1) s.reg.counters.missing
    reports := older.map (fun r => .pieceMissing r.piece p) ++
      if lowFires s.cfg.queueLow s.reg.queue.length queue.length s.reg.lowArmed then [.queueLow queue.length s.reg.base] else [] }

theorem taken_quiet (p : Nat) (r : PieceRecord) (older queue : List PieceRecord) :
    ∀ x ∈ (s.taken p r older queue).reports, x.isGap = false := by
  intro x hx
  rcases List.mem_append.1 hx with hx | hx
  · obtain ⟨o, -, rfl⟩ := List.mem_map.1 hx
    rfl
  · split at hx
    · rw [List.mem_singleton.1 hx]; rfl
    · exact absurd hx List.not_mem_nil

theorem lowWater_taken (same : SamePieces s t) (p : Nat) (r : PieceRecord) (older queue : List PieceRecord) :
    lowWater s.reg.queue.length (older.foldl (passOver p) { t with reg.queue := queue }) =
      t.afterMatch (s.taken p r older queue) := by
  have cfg : (older.foldl (passOver p) { t with reg.queue := queue }).cfg.queueLow = s.cfg.queueLow := by
    rw [foldl_passOver]
    exact congrArg (fun x : Plant => (x.config.getD emptyConfig).queueLow) same.plant
  rw [lowWater_eq cfg, foldl_passOver]
  unfold State.afterMatch State.taken
  rw [pushAll_append, ← same.window, ← same.armed, ← same.missing, ← same.base]

/-- R31: the match of a record in the queue, by the job's mode. -/
theorem matchPiece_lookup {p j : Nat} {job : Job} {r : PieceRecord} (position : t.queuePosition p = some j)
    (open_job : t.reg.job = some job) (record : t.reg.queue[j]? = some r) (mode : job.mode = .lookup) :
    matchPiece p t = (.matched r, lowWater t.reg.queue.length { t with reg.queue := t.reg.queue.eraseIdx j }) := by
  simp only [matchPiece, position, open_job, record, mode]

theorem matchPiece_sequence {p j : Nat} {job : Job} {r : PieceRecord} (position : t.queuePosition p = some j)
    (open_job : t.reg.job = some job) (record : t.reg.queue[j]? = some r) (mode : job.mode = .sequence) :
    matchPiece p t = if j ≤ job.skip then (.matched r, lowWater t.reg.queue.length
      ((t.reg.queue.take j).foldl (passOver p) { t with reg.queue := t.reg.queue.drop (j + 1) })) else (.unknownPiece, t) := by
  simp only [matchPiece, position, open_job, record, mode]

/-- R32: the answer where no record is found. -/
theorem matchPiece_unmatched {p : Nat} (h : t.queuePosition p = none ∨ t.reg.job = none) :
    matchPiece p t = (t.unmatchedAnswer p, t) := by
  rcases h with h | h <;> simp only [matchPiece, h]
  cases t.queuePosition p <;> rfl

theorem queuePosition_record {p j : Nat} (h : s.queuePosition p = some j) : ∃ r, s.reg.queue[j]? = some r := by
  obtain ⟨lt, -⟩ := List.findIdx?_eq_some_iff_getElem.1 h
  exact ⟨_, List.getElem?_eq_getElem lt⟩

/-- R31 to R33: a match has one effect on every state that holds the same pieces, and queues no SHEET_GAP. -/
theorem matchPiece_effect (p : Nat) (s : State) : ∃ e : MatchEffect, (∀ r ∈ e.reports, r.isGap = false) ∧
    ∀ t, SamePieces s t → matchPiece p t = (e.answer, t.afterMatch e) := by
  have quiet : ∀ a : MatchAnswer, (∀ t, SamePieces s t → matchPiece p t = (a, t)) →
      ∃ e : MatchEffect, (∀ r ∈ e.reports, r.isGap = false) ∧ ∀ t, SamePieces s t → matchPiece p t = (e.answer, t.afterMatch e) :=
    fun a h => ⟨s.noEffect a, fun _ hr => absurd hr List.not_mem_nil, fun t same => by
      rw [afterMatch_noEffect same, h t same]; rfl⟩
  have position : ∀ t, SamePieces s t → t.queuePosition p = s.queuePosition p := fun t same => by
    simp only [State.queuePosition, same.queue]
  have unmatched : s.queuePosition p = none ∨ s.reg.job = none → ∀ t, SamePieces s t → matchPiece p t = (s.unmatchedAnswer p, t) :=
    fun h t same => by
      rw [matchPiece_unmatched (by rw [position t same, same.job]; exact h)]
      simp only [State.unmatchedAnswer, State.place, State.pieceState, same.base, same.window]
  cases at_j : s.queuePosition p with
  | none => exact quiet _ (unmatched (.inl at_j))
  | some j =>
    cases job : s.reg.job with
    | none => exact quiet _ (unmatched (.inr job))
    | some job' =>
      obtain ⟨r, record⟩ := queuePosition_record at_j
      have record_t : ∀ t, SamePieces s t → t.reg.queue[j]? = some r := fun t same => by rw [same.queue, record]
      cases mode : job'.mode with
      | lookup =>
        refine ⟨s.taken p r [] (s.reg.queue.eraseIdx j), taken_quiet _ _ _ _, fun t same => ?_⟩
        rw [matchPiece_lookup ((position t same).trans at_j) (same.job.trans job) (record_t t same) mode, ← lowWater_taken same,
          same.queue]
        rfl
      | sequence =>
        have matching : ∀ t, SamePieces s t → matchPiece p t = if j ≤ job'.skip
            then (.matched r, t.afterMatch (s.taken p r (s.reg.queue.take j) (s.reg.queue.drop (j + 1)))) else (.unknownPiece, t) :=
          fun t same => by
            rw [matchPiece_sequence ((position t same).trans at_j) (same.job.trans job) (record_t t same) mode, ← lowWater_taken same,
              same.queue]
        by_cases near : j ≤ job'.skip
        · exact ⟨s.taken p r (s.reg.queue.take j) (s.reg.queue.drop (j + 1)), taken_quiet _ _ _ _, fun t same =>
            (matching t same).trans (if_pos near)⟩
        · exact quiet .unknownPiece fun t same => (matching t same).trans (if_neg near)

end Sys2Proof.Machine
end

section
namespace Sys2Proof.Machine

variable {s t u : State} {gap : List Report}

theorem SamePieces.trans (h : SamePieces s t) (g : SamePieces t u) : SamePieces s u :=
  ⟨g.queue.trans h.queue, g.window.trans h.window, g.armed.trans h.armed, g.missing.trans h.missing, g.job.trans h.job,
    g.base.trans h.base, g.plant.trans h.plant⟩

/-! ### The pool -/

theorem freeSlot_congr (h : ∀ i, (t.setAt i).isNone = (s.setAt i).isNone) : t.freeSlot = s.freeSlot := by
  simp only [State.freeSlot, h]

/-- R44: a free slot holds no set. -/
theorem setAt_freeSlot {j : Slot} (free : s.freeSlot = some j) : s.setAt j = none :=
  Option.isNone_iff_eq_none.1 (List.find?_some (p := fun i => (s.setAt i).isNone) free)

/-- A pool with one slot written. -/
theorem setAt_of_pool {i : Slot} {r : Option SetRecord} (pool : t.reg.pool = s.reg.pool.set i.val r i.isLt) (j : Slot) :
    t.setAt j = if j = i then r else s.setAt j := by
  simp only [State.setAt, pool, Fin.getElem_fin, Vector.getElem_set, eq_comm (a := j), Fin.ext_iff]

/-! ### What every decision leaves (R10 to R17) -/

/-- A decision leaves the wrap, the line, the monitors and the accumulator, keeps a set that awaits its release, and queues the
SHEET_GAP reports given and others that are none. -/
structure Decided (s t : State) (gap : List Report) : Prop where
  wrap : t.coll.expectedWrap = s.coll.expectedWrap
  mark : t.coll.lastMark = s.coll.lastMark
  closedTag : t.coll.closedTag = s.coll.closedTag
  plant : t.plant = s.plant
  mon : t.mon = s.mon
  line : t.line = s.line
  time : t.time = s.time
  accumulator : t.sets.accumulator = s.sets.accumulator
  release : s.sets.release ≠ .none → t.sets.release ≠ .none
  link : ∃ rs, (∀ r ∈ rs, r.isGap = false) ∧ t.link = s.link.pushAll s.time (gap ++ rs)

theorem Decided.trans (h : Decided s t []) (g : Decided t u gap) (quiet : t.link = s.link) : Decided s u gap where
  wrap := g.wrap.trans h.wrap
  mark := g.mark.trans h.mark
  closedTag := g.closedTag.trans h.closedTag
  plant := g.plant.trans h.plant
  mon := g.mon.trans h.mon
  line := g.line.trans h.line
  time := g.time.trans h.time
  accumulator := g.accumulator.trans h.accumulator
  release := g.release ∘ h.release
  link := by rw [← quiet, ← h.time]; exact g.link

/-- A decision that writes the register, the course of the collation and the release alone. -/
theorem Decided.of {c : Collation} {reg : Register} {release : Release} (wrap : c.expectedWrap = s.coll.expectedWrap)
    (mark : c.lastMark = s.coll.lastMark) (closed : c.closedTag = s.coll.closedTag)
    (pending : s.sets.release ≠ .none → release ≠ .none) :
    Decided s { s with coll := c, reg := reg, sets.release := release } [] :=
  ⟨wrap, mark, closed, rfl, rfl, rfl, rfl, rfl, pending, [], fun _ h => absurd h List.not_mem_nil, rfl⟩

/-- A decision that takes a free slot, or none, keeps every set as it is. -/
structure Opens (s t : State) (gap : List Report) : Prop extends Decided s t gap where
  kept : ∀ i r, s.setAt i = some r → t.setAt i = some r
  faulted : t.reg.counters.faulted = s.reg.counters.faulted

/-! ### A set started (R10 to R12) -/

/-- R10: the SHEET_GAP report of a sheet that starts a set. -/
def State.gapReports (s : State) (m : Mark) : List Report :=
  match s.coll.expectedWrap with
  | some e => if e = m.wrap then [] else [.sheetGap ((m.wrap + 8 - e) % 8) s.coll.lastMark m.piece m.index]
  | none => []

theorem reportGap_eq (m : Mark) (s : State) : reportGap m s = { s with link := s.link.pushAll s.time (s.gapReports m) } := by
  unfold reportGap State.gapReports
  cases s.coll.expectedWrap with
  | none => rfl
  | some e => simp only; split <;> rfl

theorem closingIndex_le_one (g : Nat) : closingIndex g ≤ 1 ↔ g ≤ 1 := by
  unfold closingIndex Config.maxSheets
  omega

/-- R12: the record of a set that starts, by its governing count and its start faults. -/
theorem startRecord_eq (same : t.reg.filter = s.reg.filter) (m : Mark) (conflict : Bool) (answer : MatchAnswer) :
    s.startRecord m conflict answer = { blankSet with
      piece := some m.piece, record := answer.record, governing := answer.governing m
      provingStart := s.line.state == .proving, lastIndex := some m.index, lastWrap := some m.wrap
      faults := t.startFaults answer m conflict (answer.governing m) } := by
  unfold State.startRecord State.startFaults
  simp only [addKindIf_eq, decide_eq_true_eq, same]
  cases answer with
  | matched rec =>
    simp only [bne_iff_ne, ne_eq, ite_not]
    rw [show (0 : FaultSet) ||| (if rec.sheets = m.count then 0 else faultMask .countMismatch) =
        if rec.sheets = m.count then 0 else faultMask .countMismatch from BitVec.zero_or,
      BitVec.or_comm (if rec.pull = true then _ else _)]
    rfl
  | unknownPiece => rfl
  | duplicatePiece => rfl

theorem startRecord_governing (m : Mark) (conflict : Bool) (answer : MatchAnswer) (s : State) :
    (s.startRecord m conflict answer).governing = answer.governing m := by
  rw [startRecord_eq (t := s) rfl]

/-- R12: what a set start writes. -/
def State.started (s : State) (m : Mark) (conflict : Bool) (j : Slot) (e : MatchEffect) : State :=
  { s with
    reg := { s.reg with
      queue := e.queue, window := e.window, lowArmed := e.armed
      counters := { s.reg.counters with missing := e.missing, started := countUp s.reg.counters.started 1 }
      pool := s.reg.pool.set j.val (some (s.startRecord m conflict e.answer)) j.isLt }
    coll := { s.coll with
      state := if e.answer.governing m ≤ 1 then .setStart else .inSet
      current := if e.answer.governing m ≤ 1 then none else some j
      expectedIndex := 2 }
    link := s.link.pushAll s.time (s.gapReports m ++ e.reports) }

/-- A change of the record that a slot was given. -/
theorem modSet_of_pool {j : Slot} {b : SetRecord} {pool : Vector (Option SetRecord) 16} {f : SetRecord → SetRecord}
    (given : t.reg.pool = pool.set j.val (some b) j.isLt) :
    t.modSet j f = { t with reg.pool := pool.set j.val (some (f b)) j.isLt } := by
  have at_j : t.setAt j = some b := by simp [State.setAt, given]
  unfold State.modSet State.putSet
  rw [at_j, given, Vector.set_set]
  rfl

/-- R10 to R12: a set starts in the lowest free slot. -/
theorem startSet_eq {m : Mark} {conflict : Bool} {j : Slot} {e : MatchEffect} (free : s.freeSlot = some j)
    (effect : ∀ t, SamePieces s t → matchPiece m.piece t = (e.answer, t.afterMatch e)) :
    startSet m conflict s = ({ slot := some j, closes := decide (e.answer.governing m ≤ 1), gap := s.wrapGap m, hunt := false },
      s.started m conflict j e) := by
  have free' : (reportGap m s).freeSlot = some j := by rw [reportGap_eq]; exact free
  have matching := effect ((reportGap m s).putSet j (some { blankSet with
      piece := some m.piece, provingStart := s.line.state == .proving }))
    (by rw [reportGap_eq]; exact ⟨rfl, rfl, rfl, rfl, rfl, rfl, rfl⟩)
  unfold startSet State.started
  simp only [free', matching, closingIndex_le_one]
  generalize after : ((reportGap m s).putSet j (some { blankSet with
      piece := some m.piece, provingStart := s.line.state == .proving })).afterMatch e = v
  have pool : v.reg.pool = s.reg.pool.set j.val (some { blankSet with
      piece := some m.piece, provingStart := s.line.state == .proving }) j.isLt := by rw [← after, reportGap_eq]; rfl
  have filter : v.reg.filter = s.reg.filter := by rw [← after, reportGap_eq]; rfl
  rw [modSet_of_pool pool, startRecord_eq filter, pushAll_append]
  have link : v.link = (s.link.pushAll s.time (s.gapReports m)).pushAll s.time e.reports := by rw [← after, reportGap_eq]; rfl
  rw [← link, countStarted, ← after, reportGap_eq]
  rfl

end Sys2Proof.Machine
end

section
namespace Sys2Proof.Machine

variable {s t u : State} {gap : List Report}

theorem startSet_full {m : Mark} {conflict : Bool} (full : s.freeSlot = none) :
    startSet m conflict s = ({ slot := none, closes := false, gap := s.wrapGap m, hunt := false }, reportGap m s) := by
  have full' : (reportGap m s).freeSlot = none := by rw [reportGap_eq]; exact full
  unfold startSet
  simp only [full']

theorem startSet_gap (m : Mark) (conflict : Bool) (s : State) :
    (startSet m conflict s).1.gap = s.wrapGap m ∧ (startSet m conflict s).1.hunt = false := by
  obtain ⟨e, -, effect⟩ := matchPiece_effect m.piece s
  cases free : s.freeSlot with
  | none => rw [startSet_full free]; exact ⟨rfl, rfl⟩
  | some j => rw [startSet_eq free effect]; exact ⟨rfl, rfl⟩

theorem startSet_opens (m : Mark) (conflict : Bool) (s : State) : Opens s (startSet m conflict s).2 (s.gapReports m) := by
  obtain ⟨e, quiet, effect⟩ := matchPiece_effect m.piece s
  cases free : s.freeSlot with
  | none =>
    rw [startSet_full free, reportGap_eq]
    exact { wrap := rfl, mark := rfl, closedTag := rfl, plant := rfl, mon := rfl, line := rfl, time := rfl, accumulator := rfl
            release := id, link := ⟨[], fun _ h => absurd h List.not_mem_nil, by rw [List.append_nil]⟩, kept := fun _ _ => id
            faulted := rfl }
  | some j =>
    rw [startSet_eq free effect]
    exact { wrap := rfl, mark := rfl, closedTag := rfl, plant := rfl, mon := rfl, line := rfl, time := rfl, accumulator := rfl
            release := id, link := ⟨e.reports, quiet, rfl⟩, faulted := rfl
            kept := fun i r holds => by
              rw [setAt_of_pool (s := s) (t := s.started m conflict j e) rfl, if_neg, holds]
              rintro rfl
              rw [setAt_freeSlot free] at holds
              cases holds }

/-! ### Bundles (R11, R16, R17) -/

/-- R16: whether the hunt count is reached by one more sheet. -/
def State.huntFull (s : State) : Bool := decide (s.cfg.huntCount ≤ s.coll.huntCount + 1)

theorem countHunt_eq (s : State) : countHunt s = (s.huntFull, { s with
    coll.huntCount := if s.huntFull then 0 else s.coll.huntCount + 1 }) := by
  unfold countHunt State.huntFull
  split
  · rename_i h; simp [h]
  · rename_i h; simp [h]

theorem bundleFaults_eq (sheet : Sheet) (f : FaultSet) : bundleFaults sheet f =
    f ||| (if sheet.mark = none then faultMask .unreadable else 0) ||| (if sheet.conflict then faultMask .markConflict else 0) := by
  unfold bundleFaults
  simp only [addKindIf_eq, Option.isNone_iff_eq_none]

/-- R11, R16: what the opening of a bundle writes. -/
def State.bundled (s : State) (sheet : Sheet) (j : Slot) : State :=
  { s with
    reg := { s.reg with
      counters := { s.reg.counters with started := countUp s.reg.counters.started 1 }
      pool := s.reg.pool.set j.val (some (s.bundleRecord sheet.mark sheet.conflict)) j.isLt }
    coll := { s.coll with
      state := if s.line.state = .runout then .setStart else .hunt
      current := if s.line.state = .runout then none else some j
      huntCount := if s.line.state = .runout ∨ s.huntFull then 0 else s.coll.huntCount + 1 } }

/-- R11, R16, R21: a bundle opens in the lowest free slot. -/
theorem openBundle_eq {sheet : Sheet} {j : Slot} (free : s.freeSlot = some j) :
    openBundle sheet s = ({ slot := some j, closes := decide (s.line.state = .runout), gap := false, hunt := s.huntFull },
      s.bundled sheet j) := by
  unfold openBundle State.bundled State.bundleRecord
  simp only [free, countHunt_eq, bundleFaults_eq]
  by_cases runout : s.line.state = .runout
  · simp only [runout, if_true, decide_true, true_or]
    rfl
  · simp only [runout, if_false, decide_false, false_or]
    rfl

theorem openBundle_full {sheet : Sheet} (full : s.freeSlot = none) :
    openBundle sheet s = ({ slot := none, closes := false, gap := false, hunt := false }, s) := by
  unfold openBundle
  simp only [full]

theorem openBundle_opens (sheet : Sheet) (s : State) : Opens s (openBundle sheet s).2 [] := by
  cases free : s.freeSlot with
  | none =>
    rw [openBundle_full free]
    exact { Decided.of rfl rfl rfl id with kept := fun _ _ => id, faulted := rfl }
  | some j =>
    rw [openBundle_eq free]
    exact { wrap := rfl, mark := rfl, closedTag := rfl, plant := rfl, mon := rfl, line := rfl, time := rfl, accumulator := rfl
            release := id, link := ⟨[], fun _ h => absurd h List.not_mem_nil, rfl⟩, faulted := rfl
            kept := fun i r holds => by
              rw [setAt_of_pool (s := s) (t := s.bundled sheet j) rfl, if_neg, holds]
              rintro rfl
              rw [setAt_freeSlot free] at holds
              cases holds }

/-- R16: what a sheet that joins the open bundle writes. -/
def State.joined (s : State) (sheet : Sheet) (i : Slot) (r : SetRecord) : State :=
  { s with
    reg.pool := s.reg.pool.set i.val (some { r with faults := bundleFaults sheet r.faults }) i.isLt
    coll := { s.coll with
      current := if 24 ≤ r.received + 1 then none else some i
      huntCount := if s.huntFull then 0 else s.coll.huntCount + 1 } }

theorem joinBundle_eq {sheet : Sheet} {i : Slot} {r : SetRecord} (holds : s.setAt i = some r) :
    joinBundle i r sheet s = ({ slot := some i, closes := decide (24 ≤ r.received + 1), gap := false, hunt := s.huntFull },
      s.joined sheet i r) := by
  unfold joinBundle State.joined
  simp only [countHunt_eq, State.modSet, holds]
  rfl

/-! ### A sheet of the current set (R13, R14) -/

/-- R13, R14: the index taken for a sheet of the current set. -/
def State.indexTaken (s : State) (mark : Option Mark) : Nat :=
  match mark with
  | some m => m.index
  | none => s.coll.expectedIndex

/-- R14: whether the sheet closes the set. -/
def State.closesSet (s : State) (mark : Option Mark) (r : SetRecord) : Bool :=
  decide (min r.governing 24 ≤ s.indexTaken mark ∨ 24 ≤ r.received + 1)

theorem setCloses_eq (mark : Option Mark) (r : SetRecord) :
    setCloses r.governing (s.indexTaken mark) (r.received + 1) = s.closesSet mark r := by
  unfold setCloses closingIndex State.closesSet Config.maxSheets
  rw [Bool.decide_or]

/-- R13, R14: the record of a set that a sheet joins. -/
def State.acceptedRecord (s : State) (r : SetRecord) (sheet : Sheet) : SetRecord :=
  { r with
    lastIndex := (sheet.mark.map Mark.index).or r.lastIndex
    lastWrap := (sheet.mark.map Mark.wrap).or r.lastWrap
    faults := r.faults ||| (if sheet.mark = none then faultMask .unreadable else 0) |||
      (if sheet.mark.any fun m => m.index != s.coll.expectedIndex || some m.wrap != s.coll.expectedWrap
        then faultMask .sheetOrder else 0) |||
      (if sheet.conflict then faultMask .markConflict else 0) |||
      (if s.closesSet sheet.mark r = true ∧ s.indexTaken sheet.mark < min r.governing 24 then faultMask .longSet else 0) }

/-- R13, R14: what a sheet of the current set writes. -/
def State.accepted (s : State) (sheet : Sheet) (i : Slot) (r : SetRecord) : State :=
  { s with
    reg.pool := s.reg.pool.set i.val (some (s.acceptedRecord r sheet)) i.isLt
    coll := { s.coll with
      state := if s.closesSet sheet.mark r then .setStart else .inSet
      current := if s.closesSet sheet.mark r then none else some i
      expectedIndex := s.indexTaken sheet.mark + 1 } }

theorem acceptSheet_eq {sheet : Sheet} {i : Slot} {r : SetRecord} (holds : s.setAt i = some r) :
    acceptSheet i r sheet s = ({ slot := some i, closes := s.closesSet sheet.mark r, gap := false, hunt := false },
      s.accepted sheet i r) := by
  obtain ⟨mark, conflict⟩ := sheet
  have closes := setCloses_eq (s := s) mark r
  unfold acceptSheet State.accepted State.acceptedRecord
  cases mark with
  | none =>
    have index : s.indexTaken none = s.coll.expectedIndex := rfl
    rw [index] at closes
    simp only [State.modSet, holds, closes, addKindIf_eq, Bool.and_eq_true, decide_eq_true_eq, Option.isNone_none, Option.any_none,
      Option.map_none, Option.none_or]
    rfl
  | some m =>
    have index : s.indexTaken (some m) = m.index := rfl
    rw [index] at closes
    simp only [State.modSet, holds, closes, addKindIf_eq, Bool.and_eq_true, decide_eq_true_eq, Option.isNone_some, Option.any_some,
      Option.map_some, Option.some_or, reduceCtorEq]
    rfl

end Sys2Proof.Machine
end

section
namespace Sys2Proof.Machine

variable {s t u : State}

/-! ### What a sheet closes before it is decided (R15 to R17) -/

/-- The close of a set or bundle leaves all but that set, the course of the collation, the counters of sets and the release. -/
structure Clears (s c : State) : Prop extends Decided s c [], SamePieces s c where
  free : c.freeSlot = s.freeSlot
  filter : c.reg.filter = s.reg.filter
  started : c.reg.counters.started = s.reg.counters.started
  quiet : c.link = s.link

theorem Clears.refl (s : State) : Clears s s :=
  { Decided.of rfl rfl rfl id, SamePieces.refl s with free := rfl, filter := rfl, started := rfl, quiet := rfl }

/-- A close by a completion: the pool has one set rewritten, and the counters of good or faulted sets rise. -/
theorem Clears.completed {i : Slot} {r q : SetRecord} {c : Collation} {faults : FaultSet} (holds : s.setAt i = some r)
    (wrap : c.expectedWrap = s.coll.expectedWrap) (mark : c.lastMark = s.coll.lastMark) (closed : c.closedTag = s.coll.closedTag) :
    Clears s { s with
      coll := c
      reg := { s.reg with
        pool := s.reg.pool.set i.val (some q) i.isLt
        counters := s.reg.counters.completed faults }
      sets.release := .pending } := by
  have counters : (s.reg.counters.completed faults).missing = s.reg.counters.missing ∧
      (s.reg.counters.completed faults).started = s.reg.counters.started := by
    unfold Counters.completed
    split <;> exact ⟨rfl, rfl⟩
  exact
    { Decided.of wrap mark closed fun _ => Release.noConfusion with
      queue := rfl, window := rfl, armed := rfl, missing := counters.1, job := rfl, base := rfl, filter := rfl
      started := counters.2, quiet := rfl
      free := freeSlot_congr fun j => by
        rw [setAt_of_pool (s := s) (r := some q) (i := i) rfl]
        split
        · rename_i h; rw [h, holds]; rfl
        · rfl }

theorem closeShort_clears {i : Slot} {r : SetRecord} (holds : s.setAt i = some r) : Clears s (closeShort i s) := by
  rw [closeShort_eq holds]
  exact .completed holds rfl rfl rfl

/-- The collation as the end of a bundle leaves it (R16, R17). -/
def State.huntLeft (s : State) : State := { s with coll := { s.coll with state := .setStart, current := none, huntCount := 0 } }

theorem endBundle_some {i : Slot} (current : s.coll.current = some i) : endBundle s = completeSet i s.huntLeft := by
  unfold endBundle
  simp only [current]
  rfl

theorem endBundle_none (current : s.coll.current = none) : endBundle s = s.huntLeft := by
  unfold endBundle
  simp only [current]
  rfl

theorem huntLeft_clears (s : State) : Clears s s.huntLeft :=
  { Decided.of rfl rfl rfl id with
    queue := rfl, window := rfl, armed := rfl, missing := rfl, job := rfl, base := rfl, free := rfl, filter := rfl, started := rfl
    quiet := rfl }

theorem endBundle_clears (s : State) : Clears s (endBundle s) := by
  cases current : s.coll.current with
  | none => rw [endBundle_none current]; exact huntLeft_clears s
  | some i =>
    rw [endBundle_some current]
    cases holds : s.setAt i with
    | none => rw [completeSet_none (s := s.huntLeft) holds]; exact huntLeft_clears s
    | some r =>
      rw [completeSet_some (s := s.huntLeft) holds]
      exact .completed holds rfl rfl rfl

theorem endBundle_huntCount (s : State) : (endBundle s).coll.huntCount = 0 := by
  cases current : s.coll.current with
  | none => rw [endBundle_none current]; rfl
  | some i =>
    rw [endBundle_some current]
    obtain ⟨p, k, r, e⟩ := completeSet_shape i s.huntLeft
    rw [e]
    rfl

theorem endBundle_setAt {i : Slot} {r : SetRecord} (current : s.coll.current = some i) (holds : s.setAt i = some r) :
    (endBundle s).setAt i = some (s.completedRecord r) ∧ (endBundle s).sets.release = .pending := by
  rw [endBundle_some current, completeSet_some (s := s.huntLeft) holds]
  refine ⟨?_, rfl⟩
  rw [setAt_of_pool (s := s) (i := i) rfl, if_pos rfl]
  rfl

/-- The state in which a sheet that starts a set, or opens a bundle from IN_SET, is decided: what it closes is closed. -/
def State.cleared (s : State) : State :=
  match s.coll.state, s.coll.current with
  | .inSet, some i => if (s.setAt i).isSome then closeShort i s else s
  | .hunt, _ => endBundle s
  | _, _ => s

theorem cleared_inSet {i : Slot} {r : SetRecord} (inSet : s.coll.state = .inSet) (current : s.coll.current = some i)
    (holds : s.setAt i = some r) : s.cleared = closeShort i s := by
  rw [State.cleared, inSet, current]
  simp [holds]

theorem cleared_hunt (hunt : s.coll.state = .hunt) : s.cleared = endBundle s := by
  rw [State.cleared, hunt]

theorem cleared_setStart (start : s.coll.state = .setStart) : s.cleared = s := by
  rw [State.cleared, start]

theorem cleared_lost (inSet : s.coll.state = .inSet) (lost : ∀ i, s.coll.current = some i → s.setAt i = none) : s.cleared = s := by
  rw [State.cleared, inSet]
  cases current : s.coll.current with
  | none => rfl
  | some i => simp [lost i current]

theorem cleared_clears (s : State) : Clears s s.cleared := by
  unfold State.cleared
  split
  · split
    · rename_i some
      obtain ⟨r, holds⟩ := Option.isSome_iff_exists.1 some
      exact closeShort_clears holds
    · exact .refl s
  · exact endBundle_clears s
  · exact .refl s

/-- The state in which a sheet opens a bundle: HUNT is entered with the count 0, or goes on. -/
def State.hunting (s : State) : State :=
  if s.coll.state = .hunt then s else { s.cleared with coll.huntCount := 0 }

theorem hunting_clears (s : State) : Clears s s.hunting := by
  unfold State.hunting
  split
  · exact .refl s
  · have h := cleared_clears s
    exact
      { wrap := h.wrap, mark := h.mark, closedTag := h.closedTag, plant := h.plant, mon := h.mon, line := h.line, time := h.time
        accumulator := h.accumulator, release := h.release, link := h.link, queue := h.queue, window := h.window, armed := h.armed
        missing := h.missing, job := h.job, base := h.base, free := h.free, filter := h.filter, started := h.started, quiet := h.quiet }

theorem hunting_huntCount (s : State) : s.hunting.coll.huntCount = if s.coll.state = .hunt then s.coll.huntCount else 0 := by
  unfold State.hunting
  split <;> rfl

/-! ### The decision, case by case (R11, R13, R15 to R17) -/

/-- R13: the current set's own test agrees with the sheet's. -/
theorem samePiece_eq {i : Slot} {r : SetRecord} (inSet : s.coll.state = .inSet) (current : s.coll.current = some i)
    (holds : s.setAt i = some r) (sheet : Sheet) : s.samePiece r sheet = s.continuesSet sheet.mark := by
  have set : s.setAt? s.coll.current = some r := by rw [current]; exact holds
  unfold State.samePiece State.continuesSet
  rw [inSet, set]
  cases sheet.mark <;> simp

theorem continuesSet_inSet {mark : Option Mark} (h : s.continuesSet mark = true) : s.coll.state = .inSet := by
  unfold State.continuesSet at h
  rw [Bool.and_eq_true, beq_iff_eq] at h
  exact h.1

theorem canStart_eq {sheet : Sheet} (other : s.continuesSet sheet.mark = false) : s.canStart sheet = s.startsSet sheet.mark := by
  have starts : s.startsSet sheet.mark = (!s.continuesSet sheet.mark && s.canStart sheet) := rfl
  simp [starts, other]

theorem startsSet_mark {sheet : Sheet} (h : s.startsSet sheet.mark = true) :
    s.continuesSet sheet.mark = false ∧ ∃ m, sheet.mark = some m ∧ m.job = s.jobCode ∧ m.index = 1 := by
  unfold State.startsSet at h
  rw [Bool.and_eq_true, Bool.not_eq_true'] at h
  obtain ⟨other, mark⟩ := h
  refine ⟨other, ?_⟩
  cases e : sheet.mark with
  | none => rw [e] at mark; cases mark
  | some m =>
    rw [e, Bool.and_eq_true, beq_iff_eq, beq_iff_eq] at mark
    exact ⟨m, rfl, mark⟩

/-- With no current set only an UNREADABLE sheet counts as one of it. -/
theorem continuesSet_lost {mark : Option Mark} (lost : ∀ i, s.coll.current = some i → s.setAt i = none)
    (own : s.continuesSet mark = true) : mark = none := by
  have set : s.setAt? s.coll.current = none := by
    cases current : s.coll.current with
    | none => rfl
    | some i => exact lost i current
  unfold State.continuesSet at own
  rw [set, Bool.and_eq_true] at own
  cases mark with
  | none => rfl
  | some m => simp at own

/-- R11: a sheet that gets SET_START handling. -/
theorem decideStart_starts {sheet : Sheet} {m : Mark} (mark : sheet.mark = some m) (job : m.job = s.jobCode) (first : m.index = 1) :
    decideStart sheet s = startSet m sheet.conflict s := by
  unfold decideStart
  simp only [mark]
  rw [if_pos ⟨job, first⟩]

theorem decideStart_hunts {sheet : Sheet} (h : s.canStart sheet = false) : decideStart sheet s = enterHunt sheet s := by
  unfold decideStart
  unfold State.canStart at h
  cases mark : sheet.mark with
  | none => rfl
  | some m =>
    rw [mark] at h
    simp only at h ⊢
    rw [if_neg]
    simpa using h

/-- R11, R13, R15 to R17: a sheet that is not of the current set, decided after what it closes is closed. -/
theorem decideSheet_other {sheet : Sheet} (active : s.coll.state ≠ .idle)
    (other : s.continuesSet sheet.mark = false ∨ (s.coll.state = .inSet ∧ ∀ i, s.coll.current = some i → s.setAt i = none))
    (leaves : s.coll.state = .hunt → s.canStart sheet = true) : decideSheet sheet s = decideStart sheet s.cleared := by
  unfold decideSheet
  cases state : s.coll.state with
  | idle => exact absurd state active
  | setStart => rw [cleared_setStart state]
  | hunt => rw [cleared_hunt state, decideHunt, if_pos (leaves state)]
  | inSet =>
    cases current : s.coll.current with
    | none => rw [cleared_lost state (by simp [current])]
    | some i =>
      cases holds : s.setAt i with
      | none => rw [cleared_lost state (by simp [current, holds])]; simp only [holds]
      | some r =>
        have apart : s.samePiece r sheet = false := by
          rw [samePiece_eq state current holds]
          exact other.resolve_right fun h => by simpa [holds] using h.2 i current
        rw [cleared_inSet state current holds]
        simp only [holds, decideInSet, apart]
        rfl

/-- R10 to R12, R15, R17: a sheet that starts a set. -/
theorem decideSheet_starts {sheet : Sheet} {m : Mark} (active : s.coll.state ≠ .idle) (starts : s.startsSet sheet.mark = true)
    (mark : sheet.mark = some m) : decideSheet sheet s = startSet m sheet.conflict s.cleared := by
  obtain ⟨other, m', mark', job, first⟩ := startsSet_mark starts
  rw [mark, Option.some.injEq] at mark'
  subst mark'
  rw [decideSheet_other active (.inl other) fun _ => (canStart_eq other).trans starts, decideStart_starts mark ?_ first]
  unfold State.jobCode
  rw [(cleared_clears s).job]
  exact job

/-- R13, R14: a sheet of the current set. -/
theorem decideSheet_accepts {sheet : Sheet} {i : Slot} {r : SetRecord} (inSet : s.coll.state = .inSet)
    (current : s.coll.current = some i) (holds : s.setAt i = some r) (own : s.continuesSet sheet.mark = true) :
    decideSheet sheet s = acceptSheet i r sheet s := by
  unfold decideSheet
  rw [inSet, current]
  simp only [holds, decideInSet, samePiece_eq inSet current holds, own, if_true]

/-- R16, R17: a sheet that joins the open bundle. -/
theorem decideSheet_joins {sheet : Sheet} {i : Slot} {r : SetRecord} (hunt : s.coll.state = .hunt)
    (current : s.coll.current = some i) (holds : s.setAt i = some r) (stays : s.canStart sheet = false) :
    decideSheet sheet s = joinBundle i r sheet s := by
  unfold decideSheet
  rw [hunt]
  simp only [decideHunt, stays, current, holds, Bool.false_eq_true, if_false]

/-- R11, R15, R16: a sheet that opens a bundle. -/
theorem decideSheet_opens {sheet : Sheet} (active : s.coll.state ≠ .idle) (stays : s.startsSet sheet.mark = false)
    (other : s.continuesSet sheet.mark = false ∨ (s.coll.state = .inSet ∧ ∀ i, s.coll.current = some i → s.setAt i = none))
    (alone : s.coll.state = .hunt → ∀ i, s.coll.current = some i → s.setAt i = none) :
    decideSheet sheet s = openBundle sheet s.hunting := by
  have quiet : s.canStart sheet = false := by
    rcases other with other | ⟨inSet, lost⟩
    · rw [canStart_eq other, stays]
    · by_cases own : s.continuesSet sheet.mark = true
      · unfold State.canStart
        rw [continuesSet_lost lost own]
      · rw [canStart_eq (Bool.eq_false_iff.2 own), stays]
  by_cases hunt : s.coll.state = .hunt
  · unfold decideSheet State.hunting
    rw [hunt, if_pos rfl]
    cases current : s.coll.current with
    | none => simp only [decideHunt, quiet, current, Bool.false_eq_true, if_false]
    | some i => simp only [decideHunt, quiet, current, alone hunt i current, Bool.false_eq_true, if_false]
  · have quiet' : s.cleared.canStart sheet = false := by
      unfold State.canStart State.jobCode at quiet ⊢
      rw [(cleared_clears s).job]
      exact quiet
    rw [decideSheet_other active other (fun h => absurd h hunt), decideStart_hunts quiet', State.hunting, if_neg hunt]
    rfl

end Sys2Proof.Machine
end

section
namespace Sys2Proof.Machine

variable {s t : State} {sheet : Sheet}

/-! ### Every decision (R10 to R17) -/

theorem huntsSheet_of (other : s.continuesSet sheet.mark = false) (stays : s.startsSet sheet.mark = false) :
    s.huntsSheet sheet.mark = true := by
  unfold State.huntsSheet
  rw [other, stays]
  rfl

/-- R11, R13, R16: a sheet is accepted, starts a set, joins the open bundle or opens one. -/
theorem decideSheet_cases (active : s.coll.state ≠ .idle) :
    (∃ i r, s.setAt i = some r ∧ s.continuesSet sheet.mark = true ∧ decideSheet sheet s = acceptSheet i r sheet s) ∨
    (∃ m, sheet.mark = some m ∧ s.startsSet sheet.mark = true ∧ decideSheet sheet s = startSet m sheet.conflict s.cleared) ∨
    (∃ i r, s.setAt i = some r ∧ s.coll.state = .hunt ∧ s.huntsSheet sheet.mark = true ∧ s.startsSet sheet.mark = false ∧
      decideSheet sheet s = joinBundle i r sheet s) ∨
    (s.startsSet sheet.mark = false ∧ (s.huntsSheet sheet.mark = true ∨
        (s.coll.state = .inSet ∧ ∀ i, s.coll.current = some i → s.setAt i = none)) ∧
      decideSheet sheet s = openBundle sheet s.hunting) := by
  by_cases starts : s.startsSet sheet.mark = true
  · obtain ⟨-, m, mark, -⟩ := startsSet_mark starts
    exact .inr (.inl ⟨m, mark, starts, decideSheet_starts active starts mark⟩)
  have stays := Bool.eq_false_iff.2 starts
  by_cases held : ∃ i r, s.coll.current = some i ∧ s.setAt i = some r
  · obtain ⟨i, r, current, holds⟩ := held
    by_cases own : s.continuesSet sheet.mark = true
    · exact .inl ⟨i, r, holds, own, decideSheet_accepts (continuesSet_inSet own) current holds own⟩
    · have other := Bool.eq_false_iff.2 own
      by_cases hunt : s.coll.state = .hunt
      · exact .inr (.inr (.inl ⟨i, r, holds, hunt, huntsSheet_of other stays, stays,
          decideSheet_joins hunt current holds ((canStart_eq other).trans stays)⟩))
      · exact .inr (.inr (.inr ⟨stays, .inl (huntsSheet_of other stays),
          decideSheet_opens active stays (.inl other) fun h => absurd h hunt⟩))
  · have lost : ∀ i, s.coll.current = some i → s.setAt i = none := fun i current => by
      cases holds : s.setAt i with
      | none => rfl
      | some r => exact absurd ⟨i, r, current, holds⟩ held
    by_cases own : s.continuesSet sheet.mark = true
    · have inSet := continuesSet_inSet own
      exact .inr (.inr (.inr ⟨stays, .inr ⟨inSet, lost⟩, decideSheet_opens active stays (.inr ⟨inSet, lost⟩) fun _ => lost⟩))
    · have other := Bool.eq_false_iff.2 own
      exact .inr (.inr (.inr ⟨stays, .inl (huntsSheet_of other stays), decideSheet_opens active stays (.inl other) fun _ => lost⟩))

/-- R10: the SHEET_GAP reports of a sheet. -/
def State.sheetGap (s : State) (mark : Option Mark) : List Report :=
  if s.startsSet mark then mark.elim [] s.gapReports else []

theorem gapReports_clears {c : State} (h : Clears s c) (m : Mark) : c.gapReports m = s.gapReports m := by
  unfold State.gapReports
  rw [h.wrap, h.mark]

/-- What every decision leaves, and the reports that it queues. -/
theorem decideSheet_decided (active : s.coll.state ≠ .idle) : Decided s (decideSheet sheet s).2 (s.sheetGap sheet.mark) := by
  rcases decideSheet_cases (sheet := sheet) active with ⟨i, r, holds, own, e⟩ | ⟨m, mark, starts, e⟩ | ⟨i, r, holds, -, -, stays, e⟩ |
    ⟨stays, -, e⟩
  · have stays : s.startsSet sheet.mark = false := by
      unfold State.startsSet
      rw [own]
      rfl
    rw [e, acceptSheet_eq holds, State.sheetGap, stays]
    exact Decided.of rfl rfl rfl id
  · rw [e, State.sheetGap, starts, mark]
    have clears := cleared_clears s
    have opens := (startSet_opens m sheet.conflict s.cleared).toDecided
    rw [gapReports_clears clears] at opens
    exact clears.toDecided.trans opens clears.quiet
  · rw [e, joinBundle_eq holds, State.sheetGap, stays]
    exact Decided.of rfl rfl rfl id
  · rw [e, State.sheetGap, stays]
    exact (hunting_clears s).toDecided.trans (openBundle_opens sheet s.hunting).toDecided (hunting_clears s).quiet

/-- R16: whether a sheet is a hunt sheet that reaches the hunt count. -/
def State.huntReached (s : State) (mark : Option Mark) : Bool :=
  s.huntsSheet mark && decide (s.cfg.huntCount ≤ (if s.coll.state = .hunt then s.coll.huntCount else 0) + 1)

theorem huntFull_of {c : State} {n : Nat} (plant : c.plant = s.plant) (count : c.coll.huntCount = n) :
    c.huntFull = decide (s.cfg.huntCount ≤ n + 1) := by
  unfold State.huntFull State.cfg
  rw [plant, count]

/-- R10, R16, R18: what a decision tells the READ monitor. -/
theorem decideSheet_told (active : s.coll.state ≠ .idle) (room : s.freeSlot ≠ none)
    (found : s.coll.state = .inSet → ∃ i, s.coll.current = some i ∧ s.setAt i ≠ none) :
    (decideSheet sheet s).1.gap = (s.startsSet sheet.mark && sheet.mark.any s.wrapGap) ∧
      (decideSheet sheet s).1.hunt = s.huntReached sheet.mark := by
  rcases decideSheet_cases (sheet := sheet) active with ⟨i, r, holds, own, e⟩ | ⟨m, mark, starts, e⟩ |
    ⟨i, r, holds, hunt, hunts, stays, e⟩ | ⟨stays, hunts, e⟩
  · rw [e, acceptSheet_eq holds]
    unfold State.huntReached State.huntsSheet State.startsSet
    rw [own]
    exact ⟨rfl, rfl⟩
  · obtain ⟨gap, hunt⟩ := startSet_gap m sheet.conflict s.cleared
    rw [e, gap, hunt, starts, mark]
    have still : s.huntsSheet (some m) = false := by
      unfold State.huntsSheet
      rw [← mark, starts]
      simp
    unfold State.huntReached State.wrapGap
    rw [still, (cleared_clears s).wrap]
    exact ⟨rfl, rfl⟩
  · rw [e, joinBundle_eq holds, stays]
    unfold State.huntReached
    rw [hunts, if_pos hunt]
    exact ⟨rfl, rfl⟩
  · obtain ⟨j, free⟩ := Option.ne_none_iff_exists'.1 room
    have clears := hunting_clears s
    have hunts : s.huntsSheet sheet.mark = true := hunts.resolve_right fun ⟨inSet, lost⟩ => by
      obtain ⟨i, current, holds⟩ := found inSet
      exact holds (lost i current)
    rw [e, openBundle_eq (clears.free.trans free), stays, State.huntReached, hunts]
    exact ⟨rfl, huntFull_of clears.plant (hunting_huntCount s)⟩

end Sys2Proof.Machine
end

section
namespace Sys2Proof.Machine

variable {s t : State} {tag : Byte} {reads : List Mark} {d : Decision} {x : State} {sheet : Sheet}

/-! ### The end of a sheet (R3, R8, R9, R83) -/

/-- R3, R7: the feed ended by its sheet. -/
def State.sheetTaken (s : State) (tag : Byte) : State := { s with coll.transit := .none, coll.closedTag := some tag }

/-- R8, R9, R83: a decided sheet with the wrap and mark following it, handed over. -/
def handedOver (sheet : Sheet) (p : Decision × State) : State := handOverDecision p.1 (updateWrap sheet p.2)

theorem endSheet_eq (tag : Byte) (reads : List Mark) (s : State) : endSheet tag reads s =
    giveReadEvents (combineReads reads) (decideSheet (combineReads reads) (s.sheetTaken tag)).1
      (handedOver (combineReads reads) (decideSheet (combineReads reads) (s.sheetTaken tag))) := rfl

/-- SHEET_END (R3). -/
theorem exec_sheetEnd {fixed : Option Byte} {timer : Timer} (feeding : s.coll.transit = .feeding fixed reads timer)
    (active : s.coll.state ≠ .idle) (own : s.takesTag fixed tag = true) :
    exec (.sheetEnd tag) s = .next (react (endSheet tag reads s)) := by
  change execSheetEnd tag s = _
  rw [execSheetEnd, takeSheetEnd, feeding]
  simp only [bne_iff_ne.2 active, own, Bool.and_self, if_true]

/-- What follows a decision writes the wrap, the mark, the sheet in transit and the gate alone. -/
theorem handedOver_shape (sheet : Sheet) (p : Decision × State) : ∃ w m tr g, handedOver sheet p = { p.2 with
    coll := { p.2.coll with expectedWrap := w, lastMark := m, transit := tr }, sets.gate := g } := by
  obtain ⟨d, x⟩ := p
  have wrap : ∃ w m, updateWrap sheet x = { x with coll := { x.coll with expectedWrap := w, lastMark := m } } := by
    unfold updateWrap
    cases sheet.mark with
    | none => exact ⟨x.coll.expectedWrap.map fun e => (e + 1) % 8, x.coll.lastMark, rfl⟩
    | some m => exact ⟨some ((m.wrap + 1) % 8), some (m.piece, m.index), rfl⟩
  obtain ⟨w, m, wrap⟩ := wrap
  rw [handedOver, wrap]
  unfold handOverDecision
  cases d.slot with
  | none => exact ⟨w, m, .none, x.sets.gate, rfl⟩
  | some i => exact ⟨w, m, _, _, rfl⟩

/-- R9: the wrap and the mark follow a sheet. -/
theorem handedOver_wrap (sheet : Sheet) (p : Decision × State) :
    (∀ m, sheet.mark = some m → (handedOver sheet p).coll.expectedWrap = some ((m.wrap + 1) % 8) ∧
      (handedOver sheet p).coll.lastMark = some (m.piece, m.index)) ∧
    (sheet.mark = none → (handedOver sheet p).coll.expectedWrap = p.2.coll.expectedWrap.map (fun e => (e + 1) % 8) ∧
      (handedOver sheet p).coll.lastMark = p.2.coll.lastMark) := by
  have keeps : ∀ y : State, (handOverDecision p.1 y).coll.expectedWrap = y.coll.expectedWrap ∧
      (handOverDecision p.1 y).coll.lastMark = y.coll.lastMark := fun y => by
    unfold handOverDecision
    cases p.1.slot <;> exact ⟨rfl, rfl⟩
  unfold handedOver
  rw [(keeps _).1, (keeps _).2]
  unfold updateWrap
  constructor
  · intro m mark
    rw [mark]
    exact ⟨rfl, rfl⟩
  · intro mark
    rw [mark]
    exact ⟨rfl, rfl⟩

/-- R8, R83: a sheet that a set receives is handed over, and the gate passes it at once or holds it. -/
theorem handedOver_transit {i : Slot} (slot : d.slot = some i) : (handedOver sheet (d, x)).coll.transit = .decided i d.closes ∧
    (handedOver sheet (d, x)).sets.gate = if x.gateOpensFor i then .passing i else .closed (some i) := by
  have opens : (updateWrap sheet x).gateOpensFor i = x.gateOpensFor i := by
    unfold updateWrap
    cases sheet.mark <;> rfl
  rw [handedOver, handOverDecision]
  simp only [slot, handOver, opens, and_self]

theorem sheetTaken_decided (active : s.coll.state ≠ .idle) (tag : Byte) (sheet : Sheet) :
    Decided (s.sheetTaken tag) (decideSheet sheet (s.sheetTaken tag)).2 (s.sheetGap sheet.mark) :=
  decideSheet_decided (s := s.sheetTaken tag) active

/-- From the hand-over to the end of the command. -/
theorem sheetEnd_hands (active : s.coll.state ≠ .idle) (quiet : s.NoSweep) :
    Hands (handedOver (combineReads reads) (decideSheet (combineReads reads) (s.sheetTaken tag))) (react (endSheet tag reads s)) := by
  have line := (sheetTaken_decided active tag (combineReads reads)).line
  rw [endSheet_eq]
  generalize decideSheet (combineReads reads) (s.sheetTaken tag) = p at line ⊢
  have events := giveReadEvents_hands (combineReads reads) p.1 (handedOver (combineReads reads) p)
  refine events.trans (react_hands (events.noSweep ?_))
  obtain ⟨w, m, tr, g, shape⟩ := handedOver_shape (combineReads reads) p
  unfold State.NoSweep at quiet ⊢
  rw [shape]
  change p.2.line.state ≠ _ ∧ p.2.line.runoutTarget ≠ _
  rw [line]
  exact quiet

/-- What the end of a command keeps of a decision. -/
structure Ends (d : Decision) (x t : State) : Prop where
  state : t.coll.state = x.coll.state
  current : t.coll.current = x.coll.current
  expectedIndex : t.coll.expectedIndex = x.coll.expectedIndex
  huntCount : t.coll.huntCount = x.coll.huntCount
  queue : t.reg.queue = x.reg.queue
  window : t.reg.window = x.reg.window
  counters : t.reg.counters = x.reg.counters
  release : x.sets.release ≠ .none → t.sets.release ≠ .none
  holds : ∀ i r, x.setAt i = some r → t.HoldsSet i r
  transit : ∀ i, d.slot = some i → t.coll.transit = .decided i d.closes
  gate : ∀ i, d.slot = some i → x.sets.accumulator ≠ none ∨ x.gateOpensFor i = true →
    t.sets.gate = if x.gateOpensFor i then .passing i else .closed (some i)
  closedTag : d.slot ≠ none → t.coll.closedTag = x.coll.closedTag
  queued : QueuesNoGap x t

theorem Hands.ends (h : Hands (handedOver sheet (d, x)) t) : Ends d x t := by
  obtain ⟨w, m, tr, g, shape⟩ := handedOver_shape sheet (d, x)
  have flow := h.flow
  have holds := h.holds
  have queued := h.toQueuesNoGap
  have release := h.release
  have tagged := h.closedTag
  have opened := h.gate
  rw [shape] at flow holds queued release tagged opened
  exact
    { state := (coll_state_of_flow flow).trans rfl, current := (coll_current_of_flow flow).trans rfl
      expectedIndex := (coll_expectedIndex_of_flow flow).trans rfl, huntCount := (coll_huntCount_of_flow flow).trans rfl
      queue := (reg_queue_of_flow flow).trans rfl, window := (reg_window_of_flow flow).trans rfl
      counters := (reg_counters_of_flow flow).trans rfl, release
      holds := fun i r at_x => holds i r (holdsSet_of_setAt at_x)
      transit := fun i slot => (h.decided i d.closes).2 (handedOver_transit slot).1
      gate := fun i slot place => by
        obtain ⟨-, gate⟩ := handedOver_transit (sheet := sheet) (x := x) slot
        rw [← gate]
        refine h.gate ?_
        rcases place with place | place
        · left; rw [shape]; exact place
        · right
          intro j
          rw [gate, place]
          simp
      closedTag := fun some => by
        obtain ⟨i, slot⟩ := Option.ne_none_iff_exists'.1 some
        have transit := (handedOver_transit (sheet := sheet) (x := x) slot).1
        rw [shape] at transit
        exact tagged ⟨i, d.closes, transit⟩
      queued := ⟨queued.time, queued.link⟩ }

/-- The end of a command, by the decision of its sheet. -/
theorem sheetEnd_ends (active : s.coll.state ≠ .idle) (quiet : s.NoSweep)
    (decision : decideSheet (combineReads reads) (s.sheetTaken tag) = (d, x)) : Ends d x (react (endSheet tag reads s)) := by
  have hands := sheetEnd_hands (tag := tag) (reads := reads) active quiet
  rw [decision] at hands
  exact hands.ends

end Sys2Proof.Machine
end

section
namespace Sys2Proof.Machine

variable {s : State} {tag : Byte} {reads : List Mark}

/-! ### A set started in SET_START (R3, R8 to R12, R83) -/

/-- R83: the gate passes a handed-over sheet at once. -/
theorem gateOpensFor_iff {i : Slot} : s.gateOpensFor i = true ↔ (s.sets.accumulator = none ∨ s.sets.accumulator = some i) ∧
    (s.line.state = .proving ∨ s.line.state = .running ∨ s.line.state = .runout ∨ s.line.state = .pausing) := by
  simp [State.gateOpensFor, or_assoc]

/-- R12: the first sheet of a set, as the record of its set has it. -/
theorem startSet_flow {m : Mark} {conflict : Bool} {i : Slot} {e : MatchEffect} (w : Option Nat) (l : Option (Nat × Nat))
    (tr : Transit) (g : SheetGate) :
    ({ s.started m conflict i e with
      coll := { (s.started m conflict i e).coll with expectedWrap := w, lastMark := l, transit := tr }, sets.gate := g } : State).flow =
    { ((s.afterMatch e).flow.put i (some (s.startRecord m conflict e.answer))) with
      register := { (s.afterMatch e).flow.register with
        counters := { (s.afterMatch e).reg.counters with started := countUp s.reg.counters.started 1 } }
      collation := { s.flow.collation with
        state := if e.answer.governing m ≤ 1 then .setStart else .inSet
        current := if e.answer.governing m ≤ 1 then none else some i
        expectedIndex := 2, expectedWrap := w, lastMark := l } } := by
  unfold State.flow Flow.put State.started State.afterMatch
  simp only [map_set_outline]

theorem continuesSet_outside (h : s.coll.state ≠ .inSet) (mark : Option Mark) : s.continuesSet mark = false := by
  unfold State.continuesSet
  rw [beq_eq_false_iff_ne.2 h, Bool.false_and]

theorem startsSet_of {m : Mark} (other : s.continuesSet (some m) = false) (job : m.job = s.jobCode) (first : m.index = 1) :
    s.startsSet (some m) = true := by
  unfold State.startsSet
  simp [other, job, first]

theorem sheetTaken_samePieces (tag : Byte) (s : State) : SamePieces (s.sheetTaken tag) s := ⟨rfl, rfl, rfl, rfl, rfl, rfl, rfl⟩

/-- R8, R9, R83: the hand-over of a GOOD sheet that a set receives. -/
theorem handedOver_good {sheet : Sheet} {m : Mark} {d : Decision} {x : State} {i : Slot} (mark : sheet.mark = some m)
    (slot : d.slot = some i) : handedOver sheet (d, x) = { x with
      coll := { x.coll with
        expectedWrap := some ((m.wrap + 1) % 8), lastMark := some (m.piece, m.index), transit := .decided i d.closes }
      sets.gate := if x.gateOpensFor i then .passing i else .closed (some i) } := by
  unfold handedOver handOverDecision updateWrap
  simp only [mark, slot]
  rfl

/-- Settles O29, by the state that a set start writes, carried through the hand-over and the READ monitor. -/
theorem sheetEndStartsSet : Obligations.SheetEndStartsSet := by
  intro tag fixed m more timer i s _ quiet feeding own start job first free
  have active : s.coll.state ≠ .idle := by rw [start]; exact CollState.noConfusion
  obtain ⟨e, -, effect⟩ := matchPiece_effect m.piece (s.sheetTaken tag)
  have matching := effect s (sheetTaken_samePieces tag s)
  have starts : (s.sheetTaken tag).startsSet (some m) = true :=
    startsSet_of (continuesSet_outside (by rw [State.sheetTaken, start]; exact CollState.noConfusion) _) job first
  have decision : decideSheet (combineReads (m :: more)) (s.sheetTaken tag) =
      ({ slot := some i, closes := decide (e.answer.governing m ≤ 1), gap := s.wrapGap m, hunt := false },
        (s.sheetTaken tag).started m (decide (2 ≤ (m :: more).length)) i e) := by
    rw [decideSheet_starts (s := s.sheetTaken tag) active starts rfl, cleared_setStart (s := s.sheetTaken tag) start]
    exact startSet_eq (s := s.sheetTaken tag) free effect
  have hands := sheetEnd_hands (tag := tag) (reads := m :: more) active quiet
  rw [decision] at hands
  have ends := hands.ends
  refine ⟨react (endSheet tag (m :: more) s), e.answer, s.afterMatch e, e.answer.governing m,
    s.startRecord m (decide (2 ≤ (m :: more).length)) e.answer, exec_sheetEnd feeding active (takesTag_iff.2 own), matching, ?_, ?_,
    ends.holds i _ ?_, ?_, ends.transit i rfl, (ends.closedTag (Option.some_ne_none i)).trans rfl, fun state empty => ?_⟩
  · cases e.answer <;> rfl
  · have conflict : (if decide (2 ≤ (m :: more).length) then faultMask .markConflict else 0) =
        if more = [] then (0 : FaultSet) else faultMask .markConflict := by cases more <;> simp
    unfold State.startRecord
    rw [first, conflict]
    cases e.answer <;> rfl
  · exact (setAt_of_pool (s := s.sheetTaken tag) (i := i) rfl i).trans (if_pos rfl)
  · rw [hands.flow, handedOver_good (sheet := combineReads (m :: more)) rfl rfl, startSet_flow, first]
    rfl
  · have opens : ((s.sheetTaken tag).started m (decide (2 ≤ (m :: more).length)) i e).gateOpensFor i = true :=
      gateOpensFor_iff.2 ⟨.inl empty, state⟩
    rw [ends.gate i rfl (.inr opens), if_pos opens]

end Sys2Proof.Machine
end

section
namespace Sys2Proof.Machine

variable {s t : State} {tag : Byte} {reads : List Mark}

/-! ### A sheet of the current set (R13, R14) -/

/-- R13, R14: the record of the current set after a sheet, for an UNREADABLE sheet and for a GOOD one. -/
theorem acceptedRecord_none (r : SetRecord) (conflict : Bool) : s.acceptedRecord r ⟨none, conflict⟩ = { r with
    faults := r.faults ||| faultMask .unreadable ||| 0 ||| (if conflict then faultMask .markConflict else 0) |||
      (if s.closesSet none r = true ∧ s.coll.expectedIndex < min r.governing 24 then faultMask .longSet else 0) } := rfl

theorem acceptedRecord_some (r : SetRecord) (m : Mark) (conflict : Bool) : s.acceptedRecord r ⟨some m, conflict⟩ = { r with
    lastIndex := some m.index, lastWrap := some m.wrap
    faults := r.faults ||| 0 |||
      (if m.index = s.coll.expectedIndex ∧ s.coll.expectedWrap = some m.wrap then 0 else faultMask .sheetOrder) |||
      (if conflict then faultMask .markConflict else 0) |||
      (if s.closesSet (some m) r = true ∧ m.index < min r.governing 24 then faultMask .longSet else 0) } := by
  have order : (if (some m).any fun m => m.index != s.coll.expectedIndex || some m.wrap != s.coll.expectedWrap
        then faultMask .sheetOrder else 0) =
      if m.index = s.coll.expectedIndex ∧ s.coll.expectedWrap = some m.wrap then (0 : FaultSet) else faultMask .sheetOrder := by
    by_cases h : m.index = s.coll.expectedIndex ∧ s.coll.expectedWrap = some m.wrap
    · simp [h.1, h.2]
    · rw [if_neg h, if_pos]
      simp only [Option.any_some, Bool.or_eq_true, bne_iff_ne]
      by_contra agree
      simp only [not_or, not_not] at agree
      exact h ⟨agree.1, agree.2.symm⟩
  unfold State.acceptedRecord
  rw [order]
  rfl

/-- R13: a sheet of the piece of the current set. -/
theorem continuesSet_of {i : Slot} {r : SetRecord} {mark : Option Mark} (inSet : s.coll.state = .inSet)
    (current : s.coll.current = some i) (holds : s.setAt i = some r)
    (own : ∀ m, mark = some m → m.job = s.jobCode ∧ r.piece = some m.piece) : s.continuesSet mark = true := by
  have set : s.setAt? s.coll.current = some r := by rw [current]; exact holds
  unfold State.continuesSet
  rw [inSet, set]
  cases mark with
  | none => rfl
  | some m =>
    obtain ⟨job, piece⟩ := own m rfl
    simp [job, piece]

/-- R13, R14: the end of a sheet of the current set. -/
theorem sheetEnd_accepts {i : Slot} {r : SetRecord} (quiet : s.NoSweep) (inSet : s.coll.state = .inSet)
    (current : s.coll.current = some i) (holds : s.setAt i = some r)
    (own : ∀ m, reads.head? = some m → m.job = s.jobCode ∧ r.piece = some m.piece) :
    Ends { slot := some i, closes := (s.sheetTaken tag).closesSet reads.head? r, gap := false, hunt := false }
      ((s.sheetTaken tag).accepted (combineReads reads) i r) (react (endSheet tag reads s)) := by
  have active : s.coll.state ≠ .idle := by rw [inSet]; exact CollState.noConfusion
  refine sheetEnd_ends active quiet ?_
  rw [decideSheet_accepts (s := s.sheetTaken tag) inSet current holds (continuesSet_of (s := s.sheetTaken tag) inSet current holds own),
    acceptSheet_eq (s := s.sheetTaken tag) holds]
  rfl

/-! ### A set or bundle closed by a sheet (R13, R15 to R17) -/

/-- R11: SET_START handling closes nothing. -/
theorem decideStart_opens (sheet : Sheet) (s : State) : ∃ gap, Opens s (decideStart sheet s).2 gap := by
  have hunts : Opens s (enterHunt sheet s).2 [] := by
    have h := openBundle_opens sheet { s with coll.huntCount := 0 }
    exact { wrap := h.wrap, mark := h.mark, closedTag := h.closedTag, plant := h.plant, mon := h.mon, line := h.line, time := h.time
            accumulator := h.accumulator, release := h.release, link := h.link, kept := h.kept, faulted := h.faulted }
  unfold decideStart
  split
  · split
    · exact ⟨_, startSet_opens _ _ s⟩
    · exact ⟨_, hunts⟩
  · exact ⟨_, hunts⟩

theorem completedRecord_faults (s : State) (r : SetRecord) : ∃ f, (s.completedRecord r).faults = r.faults ||| f := by
  unfold State.completedRecord
  split
  · exact ⟨0, BitVec.or_zero.symm⟩
  · rename_i rec _
    refine ⟨(s.planSet rec s.plant.classes[rec.insertClass] r.received).faults ||| s.offFault rec, ?_⟩
    simp only [addKindIf_eq]
    rw [BitVec.or_assoc]
    rfl

/-- R15: a set closed short has a fault. -/
theorem shortRecord_faults (s : State) (r : SetRecord) : (s.shortRecord r).faults ≠ 0 := by
  intro none
  obtain ⟨f, faults⟩ := completedRecord_faults s { r with faults := r.faults ||| faultMask .shortSet }
  have bit : (s.shortRecord r).faults.getLsbD (faultBit .shortSet) = true := by
    unfold State.shortRecord
    rw [faults]
    simp [faultMask, faultBit]
  rw [none] at bit
  simp at bit

theorem completed_faulted {k : Counters} {f : FaultSet} (h : f ≠ 0) : (k.completed f).faulted = min (k.faulted + 1) 4294967295 := by
  unfold Counters.completed
  rw [if_neg h]

/-- R13, R15: a sheet that is not of the current set closes it short. -/
theorem sheetEnd_short {i : Slot} {r : SetRecord} (quiet : s.NoSweep) (inSet : s.coll.state = .inSet)
    (current : s.coll.current = some i) (holds : s.setAt i = some r) (other : s.continuesSet reads.head? = false) :
    (react (endSheet tag reads s)).HoldsSet i (s.shortRecord r) ∧ (react (endSheet tag reads s)).sets.release ≠ .none ∧
      (react (endSheet tag reads s)).reg.counters.faulted = min (s.reg.counters.faulted + 1) 4294967295 := by
  have active : s.coll.state ≠ .idle := by rw [inSet]; exact CollState.noConfusion
  have decision := decideSheet_other (s := s.sheetTaken tag) (sheet := combineReads reads) active (.inl other)
    fun hunt => by rw [show s.coll.state = .hunt from hunt] at inSet; cases inSet
  rw [cleared_inSet (s := s.sheetTaken tag) inSet current holds] at decision
  obtain ⟨gap, opens⟩ := decideStart_opens (combineReads reads) (closeShort i (s.sheetTaken tag))
  have ends := sheetEnd_ends (tag := tag) active quiet (decision.trans Prod.mk.eta.symm)
  have closed := closeShort_eq (s := s.sheetTaken tag) holds
  refine ⟨ends.holds i _ (opens.kept i _ (closeShort_setAt (s := s.sheetTaken tag) holds)), ends.release (opens.release ?_), ?_⟩
  · rw [closed]; exact Release.noConfusion
  · rw [ends.counters, opens.faulted, closed]
    exact completed_faulted (shortRecord_faults (s.sheetTaken tag) r)

/-- R16, R17: a sheet that starts a set ends the open bundle. -/
theorem sheetEnd_endsBundle {i : Slot} {r : SetRecord} (quiet : s.NoSweep) (hunt : s.coll.state = .hunt)
    (current : s.coll.current = some i) (holds : s.setAt i = some r) (starts : s.startsSet reads.head? = true) :
    (react (endSheet tag reads s)).HoldsSet i (s.completedRecord r) ∧ (react (endSheet tag reads s)).sets.release ≠ .none := by
  have active : s.coll.state ≠ .idle := by rw [hunt]; exact CollState.noConfusion
  obtain ⟨-, m, mark, -⟩ := startsSet_mark (sheet := combineReads reads) starts
  have decision := decideSheet_starts (s := s.sheetTaken tag) (sheet := combineReads reads) active starts mark
  rw [cleared_hunt (s := s.sheetTaken tag) hunt] at decision
  have opens := startSet_opens m (combineReads reads).conflict (endBundle (s.sheetTaken tag))
  have ends := sheetEnd_ends (tag := tag) active quiet (decision.trans Prod.mk.eta.symm)
  obtain ⟨at_i, release⟩ := endBundle_setAt (s := s.sheetTaken tag) current holds
  refine ⟨ends.holds i _ (opens.kept i _ at_i), ends.release (opens.release ?_)⟩
  rw [release]
  exact Release.noConfusion

end Sys2Proof.Machine
end

section
namespace Sys2Proof.Machine

variable {s t : State} {tag : Byte} {reads : List Mark}

/-! ### A set started after what the sheet closes (R11, R12) -/

theorem startRecord_clears {c : State} (h : Clears s c) (m : Mark) (conflict : Bool) (answer : MatchAnswer) :
    c.startRecord m conflict answer = s.startRecord m conflict answer := by
  unfold State.startRecord
  rw [h.filter, h.line]

/-- R11, R12: the end of a sheet that starts a set. -/
theorem sheetEnd_starts {m : Mark} {j : Slot} (quiet : s.NoSweep) (active : s.coll.state ≠ .idle) (mark : reads.head? = some m)
    (starts : s.startsSet (some m) = true) (free : s.freeSlot = some j) :
    ∃ answer r, answer = (matchPiece m.piece s).1 ∧ r = s.startRecord m (decide (2 ≤ reads.length)) answer ∧
      (react (endSheet tag reads s)).HoldsSet j r ∧
      (react (endSheet tag reads s)).coll.state = (if r.governing ≤ 1 then .setStart else .inSet) ∧
      (react (endSheet tag reads s)).coll.current = (if r.governing ≤ 1 then none else some j) ∧
      (react (endSheet tag reads s)).coll.expectedIndex = 2 ∧
      (react (endSheet tag reads s)).coll.transit = .decided j (decide (r.governing ≤ 1)) ∧
      (s.coll.state = .hunt → (react (endSheet tag reads s)).coll.huntCount = 0) ∧
      (react (endSheet tag reads s)).reg.queue = (matchPiece m.piece s).2.reg.queue ∧
      (react (endSheet tag reads s)).reg.window = (matchPiece m.piece s).2.reg.window ∧
      (react (endSheet tag reads s)).reg.counters.started = min (s.reg.counters.started + 1) 4294967295 ∧
      (∀ i, s.sets.accumulator = some i → i ≠ j → (react (endSheet tag reads s)).sets.gate = .closed (some j)) := by
  have clears := cleared_clears (s.sheetTaken tag)
  obtain ⟨e, -, effect⟩ := matchPiece_effect m.piece (s.sheetTaken tag)
  have matching := effect s (sheetTaken_samePieces tag s)
  have record := startRecord_clears clears m (decide (2 ≤ reads.length)) e.answer
  have governing := startRecord_governing m (decide (2 ≤ reads.length)) e.answer s
  have decision : decideSheet (combineReads reads) (s.sheetTaken tag) = _ :=
    (decideSheet_starts (s := s.sheetTaken tag) (sheet := combineReads reads) (m := m) active
      (by rw [← mark] at starts; exact starts) mark).trans
      (startSet_eq (clears.free.trans free) fun t same => effect t (clears.toSamePieces.trans same))
  have ends := sheetEnd_ends active quiet decision
  refine ⟨e.answer, _, by rw [matching], rfl, ?_, ?_, ?_, ends.expectedIndex, ?_, fun hunt => ?_, ?_, ?_, ?_, fun i place other => ?_⟩
  · refine ends.holds j _ ?_
    rw [← show (s.sheetTaken tag).startRecord m _ e.answer = s.startRecord m _ e.answer from rfl, ← record]
    exact (setAt_of_pool (s := (s.sheetTaken tag).cleared) (i := j) rfl j).trans (if_pos rfl)
  · rw [governing]; exact ends.state
  · rw [governing]; exact ends.current
  · rw [governing]; exact ends.transit j rfl
  · refine ends.huntCount.trans ?_
    change (s.sheetTaken tag).cleared.coll.huntCount = 0
    rw [cleared_hunt (s := s.sheetTaken tag) hunt]
    exact endBundle_huntCount _
  · rw [matching]; exact ends.queue
  · rw [matching]; exact ends.window
  · rw [ends.counters]
    exact congrArg (fun n => min (n + 1) 4294967295) clears.started
  · have accumulator : ((s.sheetTaken tag).cleared.started m (combineReads reads).conflict j e).sets.accumulator = some i :=
      clears.accumulator.trans place
    rw [ends.gate j rfl (.inl (by rw [accumulator]; exact Option.some_ne_none i)), if_neg]
    rw [gateOpensFor_iff, accumulator]
    simp [other]

/-! ### Hunt sheets (R11, R16, R17, R21) -/

theorem huntsSheet_not {mark : Option Mark} (h : s.huntsSheet mark = true) :
    s.continuesSet mark = false ∧ s.startsSet mark = false := by
  simpa [State.huntsSheet] using h

theorem bundleRecord_clears {c : State} (h : Clears s c) (sheet : Option Mark) (conflict : Bool) :
    c.bundleRecord sheet conflict = s.bundleRecord sheet conflict := by
  unfold State.bundleRecord
  rw [h.line]

/-- R11, R16, R21: the end of a hunt sheet that opens a bundle. -/
theorem sheetEnd_opens {j : Slot} (quiet : s.NoSweep) (active : s.coll.state ≠ .idle) (hunts : s.huntsSheet reads.head? = true)
    (free : s.freeSlot = some j) (alone : s.coll.state ≠ .hunt ∨ s.coll.current = none) :
    (react (endSheet tag reads s)).coll.state = (if s.line.state = .runout then .setStart else .hunt) ∧
      (react (endSheet tag reads s)).coll.current = (if s.line.state = .runout then none else some j) ∧
      (react (endSheet tag reads s)).coll.huntCount = (if s.line.state = .runout ∨
          s.cfg.huntCount ≤ (if s.coll.state = .hunt then s.coll.huntCount else 0) + 1 then 0
        else (if s.coll.state = .hunt then s.coll.huntCount else 0) + 1) ∧
      (react (endSheet tag reads s)).reg.counters.started = min (s.reg.counters.started + 1) 4294967295 ∧
      (react (endSheet tag reads s)).coll.transit = .decided j (decide (s.line.state = .runout)) ∧
      (react (endSheet tag reads s)).HoldsSet j (s.bundleRecord reads.head? (decide (2 ≤ reads.length))) := by
  have clears := hunting_clears (s.sheetTaken tag)
  obtain ⟨other, stays⟩ := huntsSheet_not hunts
  have decision : decideSheet (combineReads reads) (s.sheetTaken tag) = _ :=
    (decideSheet_opens (s := s.sheetTaken tag) (sheet := combineReads reads) active stays (.inl other) fun hunt i current => by
      rcases alone with alone | alone
      · exact absurd hunt alone
      · rw [show s.coll.current = some i from current] at alone; cases alone).trans
      (openBundle_eq (clears.free.trans free))
  have ends := sheetEnd_ends active quiet decision
  have line : (s.sheetTaken tag).hunting.line = s.line := clears.line
  have count : (s.sheetTaken tag).hunting.coll.huntCount = if s.coll.state = .hunt then s.coll.huntCount else 0 :=
    hunting_huntCount (s.sheetTaken tag)
  have full : (s.sheetTaken tag).hunting.huntFull = decide (s.cfg.huntCount ≤
      (if s.coll.state = .hunt then s.coll.huntCount else 0) + 1) := huntFull_of (s := s) clears.plant count
  refine ⟨ends.state.trans ?_, ends.current.trans ?_, ends.huntCount.trans ?_, ?_, (ends.transit j rfl).trans ?_, ?_⟩
  · unfold State.bundled; rw [line]
  · unfold State.bundled; rw [line]
  · unfold State.bundled
    rw [line, count, full]
    simp only [decide_eq_true_eq]
  · rw [ends.counters]
    exact congrArg (fun n => min (n + 1) 4294967295) clears.started
  · rw [line]
  · refine ends.holds j _ ?_
    rw [← show (s.sheetTaken tag).bundleRecord reads.head? _ = s.bundleRecord reads.head? _ from rfl, ← bundleRecord_clears clears]
    exact (setAt_of_pool (s := (s.sheetTaken tag).hunting) (i := j) rfl j).trans (if_pos rfl)

/-- R16, R17: the end of a hunt sheet that joins the open bundle. -/
theorem sheetEnd_joins {i : Slot} {r : SetRecord} (quiet : s.NoSweep) (hunt : s.coll.state = .hunt)
    (current : s.coll.current = some i) (holds : s.setAt i = some r)
    (other : ∀ m, reads.head? = some m → m.job ≠ s.jobCode ∨ m.index ≠ 1) :
    (react (endSheet tag reads s)).coll.state = .hunt ∧
      (react (endSheet tag reads s)).coll.current = (if 24 ≤ r.received + 1 then none else some i) ∧
      (react (endSheet tag reads s)).coll.huntCount = (if s.cfg.huntCount ≤ s.coll.huntCount + 1 then 0 else s.coll.huntCount + 1) ∧
      (react (endSheet tag reads s)).HoldsSet i { r with
        faults := r.faults ||| (if reads.head? = none then faultMask .unreadable else 0) |||
          (if 2 ≤ reads.length then faultMask .markConflict else 0) } := by
  have active : s.coll.state ≠ .idle := by rw [hunt]; exact CollState.noConfusion
  have stays : (s.sheetTaken tag).canStart (combineReads reads) = false := by
    unfold State.canStart
    rw [show (combineReads reads).mark = reads.head? from rfl]
    cases mark : reads.head? with
    | none => rfl
    | some m =>
      have apart : ¬ (m.job = (s.sheetTaken tag).jobCode ∧ m.index = 1) := fun h => (other m mark).elim (· h.1) (· h.2)
      simpa using fun h => not_and.1 apart h
  have ends := sheetEnd_ends active quiet ((decideSheet_joins (s := s.sheetTaken tag) hunt current holds stays).trans
    (joinBundle_eq (s := s.sheetTaken tag) holds))
  refine ⟨ends.state.trans hunt, ends.current, ends.huntCount.trans ?_, ?_⟩
  · unfold State.joined State.huntFull
    simp only [decide_eq_true_eq]
    rfl
  · have joined := ends.holds i _ ((setAt_of_pool (s := s.sheetTaken tag) (i := i) rfl i).trans (if_pos rfl))
    have conflict : (if (combineReads reads).conflict then faultMask .markConflict else 0) =
        if 2 ≤ reads.length then faultMask .markConflict else 0 := by simp [combineReads]
    rw [bundleFaults_eq, conflict] at joined
    exact joined

end Sys2Proof.Machine
end

section
namespace Sys2Proof.Machine

variable {s t : State} {tag : Byte} {reads : List Mark}

/-! ### The wrap and the reports of a sheet (R9, R10) -/

/-- R9: the wrap and the mark at the end of a sheet. -/
theorem sheetEnd_wrap (quiet : s.NoSweep) (active : s.coll.state ≠ .idle) :
    (∀ m, reads.head? = some m → (react (endSheet tag reads s)).coll.expectedWrap = some ((m.wrap + 1) % 8) ∧
      (react (endSheet tag reads s)).coll.lastMark = some (m.piece, m.index)) ∧
    (reads.head? = none →
      (react (endSheet tag reads s)).coll.expectedWrap = s.coll.expectedWrap.map (fun e => (e + 1) % 8) ∧
      (react (endSheet tag reads s)).coll.lastMark = s.coll.lastMark) := by
  have flow := (sheetEnd_hands (tag := tag) (reads := reads) active quiet).flow
  have decided := sheetTaken_decided active tag (combineReads reads)
  rw [coll_expectedWrap_of_flow flow, coll_lastMark_of_flow flow]
  obtain ⟨good, unreadable⟩ := handedOver_wrap (combineReads reads) (decideSheet (combineReads reads) (s.sheetTaken tag))
  refine ⟨good, fun none => ?_⟩
  rw [(unreadable none).1, (unreadable none).2, decided.wrap, decided.mark]
  exact ⟨rfl, rfl⟩

/-- R10: the reports of a sheet are the SHEET_GAP of its gap, if any, and others. -/
theorem sheetEnd_reports (quiet : s.NoSweep) (active : s.coll.state ≠ .idle) :
    ∃ after, (∀ x ∈ after, x.isGap = false) ∧
      (react (endSheet tag reads s)).link = (queueReports (s.sheetGap reads.head? ++ after) s).link := by
  have decided := sheetTaken_decided active tag (combineReads reads)
  have ends := sheetEnd_ends (tag := tag) (reads := reads) active quiet Prod.mk.eta.symm
  obtain ⟨a, quiet_a, link_a⟩ := decided.link
  obtain ⟨b, quiet_b, link_b⟩ := ends.queued.link
  refine ⟨a ++ b, fun x hx => ?_, ?_⟩
  · rcases List.mem_append.1 hx with hx | hx
    · exact quiet_a x hx
    · exact quiet_b x hx
  · rw [link_b, link_a, decided.time, queueReports_eq, ← List.append_assoc]
    exact (pushAll_append ..).symm

theorem sheetGap_none : s.sheetGap none = [] := by
  unfold State.sheetGap
  split <;> rfl

theorem sheetGap_first {m : Mark} (first : s.coll.expectedWrap = none) : s.sheetGap (some m) = [] := by
  unfold State.sheetGap
  split
  · change s.gapReports m = []
    rw [State.gapReports, first]
  · rfl

theorem sheetGap_some {m : Mark} {e : Nat} (wrap : s.coll.expectedWrap = some e) : s.sheetGap (some m) =
    if s.startsSet (some m) = true ∧ e ≠ m.wrap then [.sheetGap ((m.wrap + 8 - e) % 8) s.coll.lastMark m.piece m.index] else [] := by
  unfold State.sheetGap
  split
  · rename_i starts
    change s.gapReports m = _
    rw [State.gapReports, wrap]
    simp only [starts, true_and, ne_eq, ite_not]
  · rename_i stays
    rw [if_neg fun h => stays h.1]

/-! ### The READ monitor's events of a sheet (R18) -/

/-- R18: the fault events that a sheet gives. -/
def State.readEvents (s : State) (reads : List Mark) : Nat :=
  (if (s.startsSet reads.head? && reads.head?.any s.wrapGap) = true then 1 else 0) +
    (if reads.head? = none ∨ 2 ≤ reads.length then 1 else 0) + (if s.huntReached reads.head? = true then 1 else 0)

theorem readFaults_length (sheet : Sheet) (d : Decision) (piece : Option Nat) : (readFaults sheet d piece).length =
    (if d.gap = true then 1 else 0) + (if sheet.mark = none ∨ sheet.conflict = true then 1 else 0) +
      (if d.hunt = true then 1 else 0) := by
  have own : (if sheet.mark.isNone then [(TripCause.unreadable, piece)]
      else if sheet.conflict then [(TripCause.markConflict, piece)] else []).length =
        if sheet.mark = none ∨ sheet.conflict = true then 1 else 0 := by
    cases sheet.mark <;> cases sheet.conflict <;> rfl
  unfold readFaults
  rw [List.length_append, List.length_append, own]
  congr 1
  · congr 1
    split <;> rfl
  · split <;> rfl

/-- R18: the events that the READ monitor is given at the end of a sheet. -/
theorem sheetEnd_events (active : s.coll.state ≠ .idle) (room : s.freeSlot ≠ none)
    (found : s.coll.state = .inSet → ∃ i, s.coll.current = some i ∧ s.setAt i ≠ none) (piece : Option Nat) :
    (readFaults (combineReads reads) (decideSheet (combineReads reads) (s.sheetTaken tag)).1 piece).length = s.readEvents reads ∧
    (readGood (combineReads reads) (decideSheet (combineReads reads) (s.sheetTaken tag)).1 = true ↔
      ¬ (reads.head? = none ∨ 2 ≤ reads.length ∨ s.huntReached reads.head? = true)) := by
  obtain ⟨gap, hunt⟩ := decideSheet_told (s := s.sheetTaken tag) (sheet := combineReads reads) active room found
  constructor
  · rw [readFaults_length, gap, hunt]
    simp only [combineReads, decide_eq_true_eq]
    rfl
  · unfold readGood
    rw [hunt]
    change (reads.head?.isSome && !decide (2 ≤ reads.length) && !s.huntReached reads.head?) = true ↔ _
    simp only [Bool.and_eq_true, Bool.not_eq_true', decide_eq_false_iff_not, Option.isSome_iff_ne_none, not_or, and_assoc,
      Bool.not_eq_true, ne_eq]

theorem handedOver_keeps {sheet : Sheet} {p : Decision × State} {gap : List Report} (h : Decided s p.2 gap) :
    (handedOver sheet p).mon = s.mon ∧ (handedOver sheet p).plant = s.plant ∧ (handedOver sheet p).line = s.line := by
  obtain ⟨w, m, tr, g, shape⟩ := handedOver_shape sheet p
  rw [shape]
  exact ⟨h.mon, h.plant, h.line⟩

theorem readLevel_of_fixed (h : t.fixed = s.fixed) : t.mon.read = s.mon.read := congrArg Fixed.readMonitor h

/-- R18, R50, R51: the READ monitor at the end of a sheet whose events do not trip it. -/
theorem sheetEnd_monitor (active : s.coll.state ≠ .idle) (opened : s.jobOpen = true)
    (room : s.freeSlot ≠ none) (found : s.coll.state = .inSet → ∃ i, s.coll.current = some i ∧ s.setAt i ≠ none) {n : Nat}
    (count : n = s.readEvents reads) (below : n = 0 ∨ s.mon.read.level + n * s.cfg.readMon.u < s.cfg.readMon.t) :
    (react (endSheet tag reads s)).mon.read =
      if reads.head? = none ∨ 2 ≤ reads.length ∨ s.huntReached reads.head? = true
      then ⟨s.mon.read.level + n * s.cfg.readMon.u, s.mon.read.good⟩
      else goodStep s.cfg.readMon.d ⟨s.mon.read.level + n * s.cfg.readMon.u, s.mon.read.good⟩ := by
  have decided := sheetTaken_decided active tag (combineReads reads)
  have events := fun piece => sheetEnd_events (tag := tag) (reads := reads) active room found piece
  rw [readLevel_of_fixed (react_fixed (endSheet tag reads s)), endSheet_eq]
  generalize decideSheet (combineReads reads) (s.sheetTaken tag) = p at decided events ⊢
  obtain ⟨mon, plant, line⟩ := handedOver_keeps (sheet := combineReads reads) decided
  have cfg : (handedOver (combineReads reads) p).cfg = s.cfg := congrArg (fun x : Plant => x.config.getD emptyConfig) plant
  have opened' : (handedOver (combineReads reads) p).jobOpen = true := by
    unfold State.jobOpen
    rw [line]
    exact opened
  have level : (handedOver (combineReads reads) p).mon.read = s.mon.read := congrArg MonitorBank.read mon
  have given := giveReadEvents_below (n := n) opened' ((events _).1.trans count.symm) (by rw [level, cfg]; exact below)
  rw [given, level, cfg]
  by_cases good : readGood (combineReads reads) p.1 = true
  · rw [if_pos good, if_neg ((events none).2.1 good)]
  · rw [if_neg good, if_pos (not_not.1 fun h => good ((events none).2.2 h))]

/-- A line in FAULT_STOP stays as it is through the blocks' tests. -/
theorem react_faultStopped (h : s.line.state = .faultStop) : (react s).line = s.line := by
  rw [react_atRest (by rw [h]; rfl)]
  rfl

/-- R18, R22, R53: a sheet whose event trips the READ monitor stops the line, and its set is disturbed. -/
theorem sheetEnd_trips (quiet : s.NoSweep) (active : s.coll.state ≠ .idle) (opened : s.jobOpen = true)
    (room : s.freeSlot ≠ none) (found : s.coll.state = .inSet → ∃ i, s.coll.current = some i ∧ s.setAt i ≠ none)
    (faulty : 1 ≤ s.readEvents reads) (reached : s.cfg.readMon.t ≤ s.mon.read.level + s.cfg.readMon.u)
    (moves : s.motion = true ∨ s.line.state = .pausing) :
    (react (endSheet tag reads s)).line.state = .faultStop ∧ (react (endSheet tag reads s)).line.stopReason = some .readMonitor ∧
      ∀ j closes q, (react (endSheet tag reads s)).coll.transit = .decided j closes →
        (react (endSheet tag reads s)).setAt j = some q → hasKind q.faults .disturbed = true := by
  have decided := sheetTaken_decided active tag (combineReads reads)
  have events := fun piece => (sheetEnd_events (tag := tag) (reads := reads) active room found piece).1
  rw [endSheet_eq]
  generalize decideSheet (combineReads reads) (s.sheetTaken tag) = p at decided events ⊢
  obtain ⟨mon, plant, line⟩ := handedOver_keeps (sheet := combineReads reads) decided
  generalize handedOver (combineReads reads) p = x at mon plant line ⊢
  have cfg : x.cfg = s.cfg := congrArg (fun x : Plant => x.config.getD emptyConfig) plant
  have opened' : x.jobOpen = true := by unfold State.jobOpen; rw [line]; exact opened
  have moves' : x.motion = true ∨ x.line.state = .pausing := by unfold State.motion; rw [line]; exact moves
  have faulty' : readFaults (combineReads reads) p.1 (x.decidedPiece p.1) ≠ [] := by
    rw [← List.length_pos_iff, events]
    exact faulty
  obtain ⟨cause, piece, hands, stopped⟩ := giveReadEvents_trips opened' faulty' (by rw [mon, cfg]; exact reached) moves'
  have quiet' : (giveReadEvents (combineReads reads) p.1 x).NoSweep := (giveReadEvents_hands _ _ x).noSweep (by
    unfold State.NoSweep
    rw [line]
    exact quiet)
  have rest : (giveReadEvents (combineReads reads) p.1 x).line.state = .faultStop := by rw [stopped]; rfl
  have after := react_hands quiet'
  rw [react_faultStopped rest, stopped]
  refine ⟨rfl, rfl, fun j closes q transit holds => (hands.trans after).hasKind (fun r marked => ?_) holds⟩
  have carried := (readTripped_hands (s := x) cause piece).trans (faultStop_hands .readMonitor _)
  have before := (carried.decided j closes).1 (((hands.trans after).decided j closes).1 transit)
  exact faultStop_disturbs (s := x.readTripped cause piece) moves' before marked

end Sys2Proof.Machine
end

section
namespace Sys2Proof.Machine

variable {s : State}

theorem isGap_sheetGap {x : Report} (quiet : x.isGap = false) (lost : Nat) (last : Option (Nat × Nat)) (p k : Nat) :
    x ≠ .sheetGap lost last p k := by
  rintro rfl
  cases quiet

/-- R10, R18: a gap seen by a sheet counts as one fault event. -/
theorem gapEvent_some {m : Mark} {e : Nat} (wrap : s.coll.expectedWrap = some e) :
    (s.startsSet (some m) && (some m).any s.wrapGap) = true ↔ s.startsSet (some m) = true ∧ e ≠ m.wrap := by
  simp [State.wrapGap, wrap]

theorem huntReached_iff {mark : Option Mark} : s.huntReached mark = true ↔
    s.huntsSheet mark = true ∧ s.cfg.huntCount ≤ (if s.coll.state = .hunt then s.coll.huntCount else 0) + 1 := by
  unfold State.huntReached
  rw [Bool.and_eq_true, decide_eq_true_eq]

/-- Settles O30, by the four courses of a decision, each carried to the end of the command. -/
theorem sheetEndContinuesSetOrHunts : Obligations.SheetEndContinuesSetOrHunts := by
  rintro tag fixed reads timer s sheet quiet feeding rfl own active
  obtain ⟨good, unreadable⟩ := sheetEnd_wrap (tag := tag) (reads := reads) quiet active
  refine ⟨react (endSheet tag reads s), exec_sheetEnd feeding active (takesTag_iff.2 own), good, unreadable,
    fun i r inSet current holds same => ?_, fun i r inSet current holds other => sheetEnd_short quiet inSet current holds other,
    fun i r hunt current holds starts => sheetEnd_endsBundle quiet hunt current holds starts,
    fun j m starts mark free _ _ => sheetEnd_starts quiet active mark (by rw [← mark]; exact starts) free,
    fun j hunts free alone _ => sheetEnd_opens quiet active hunts free alone,
    fun i r hunt current holds other => sheetEnd_joins quiet hunt current holds other, ?_, fun faults opened room count found => ?_⟩
  · have ends := sheetEnd_accepts (tag := tag) quiet inSet current holds same
    have joined := ends.holds i _ ((setAt_of_pool (s := s.sheetTaken tag) (i := i) rfl i).trans (if_pos rfl))
    refine ⟨(s.sheetTaken tag).indexTaken reads.head?, (s.sheetTaken tag).closesSet reads.head? r, ?_, rfl, ends.state, ends.current,
      ends.expectedIndex, ?_⟩
    · cases reads.head? <;> rfl
    · rw [combineReads] at joined
      generalize reads.head? = mark at joined ⊢
      cases mark with
      | none =>
        simp only [acceptedRecord_none, decide_eq_true_eq] at joined
        exact joined
      | some m =>
        simp only [acceptedRecord_some, decide_eq_true_eq] at joined
        exact joined
  · obtain ⟨after, quiet', link⟩ := sheetEnd_reports (tag := tag) (reads := reads) quiet active
    refine ⟨[], after, link.trans ?_, fun x hx lost last p k => isGap_sheetGap (quiet' x (by simpa using hx)) lost last p k⟩
    cases reads.head? with
    | none => rw [sheetGap_none]; rfl
    | some m =>
      cases wrap : s.coll.expectedWrap with
      | none => rw [sheetGap_first wrap]; rfl
      | some e => rw [sheetGap_some wrap]; rfl
  · have count : faults = s.readEvents reads := by
      rw [count, State.readEvents]
      simp only [huntReached_iff]
      congr 2
      cases reads.head? with
      | none => simp
      | some m =>
        cases wrap : s.coll.expectedWrap with
        | none => simp [State.wrapGap, wrap]
        | some e => simp only [gapEvent_some wrap]
    refine ⟨fun below => ?_, fun some reached moves => sheetEnd_trips quiet active opened room found (count ▸ some) reached moves⟩
    rw [sheetEnd_monitor active opened room found count below]
    simp only [huntReached_iff, goodStep]

end Sys2Proof.Machine
end
